-- ==== Sys2Proof/Word.lean ====
section
/-! DEFINITION. The words of the display core: 16-bit masks, bytes, 21-bit code points, 32-bit command words, 64-bit
response data, and the bounded position type (spec/00_scope.md R6, R8; spec/30_encoding.md R60, R66). -/

namespace Sys2Proof

/-- A glyph/segment mask, `MASK_W` = 16 bits (R6). -/
abbrev Mask := BitVec 16

/-- One byte of the display buffer byte space (R40). -/
abbrev Byte := BitVec 8

/-- A character operand: a 21-bit code point 0..0x1FFFFF (R6 `CHAR_W`, R66). -/
abbrev CodePoint := BitVec 21

/-- The unsigned 21-bit integer operand of POS_CHECK (R66). -/
abbrev PosInt := BitVec 21

/-- A command word `CMD`, 32 bits (R60). -/
abbrev CmdWord := BitVec 32

/-- The data of a response, `RDATA[63:0]` (R64). -/
abbrev RData := BitVec 64

/-- A digit position, an integer in [0, N) with N = 4: out-of-range positions are excluded by the type
(R6, R45, R130). Position 0 is the leftmost character (R21). -/
abbrev Position := Fin 4

/-- A byte address of the display buffer byte space, 0..7 (R40). -/
abbrev ByteAddr := Fin 8

end Sys2Proof
end

