-- ==== Sys2Proof/Syntax.lean ====
section
/-! DEFINITION. The commands of the block: one constructor per row of spec/opcode_table.json (spec/30_encoding.md R62),
with the operands of R66. Every operand type holds exactly the values the command word's field can hold. -/

namespace Sys2Proof

/-- A legal command. An illegal command word (R63) is no term of this type: the decoder rejects it. -/
inductive Instr where
  /-- `LOOKUP c`, OP = 0x1 (R86). -/
  | lookup (c : CodePoint)
  /-- `CHK_LOOKUP c`, OP = 0x2 (R87). -/
  | chkLookup (c : CodePoint)
  /-- `ADDR_OF p`, OP = 0x3 (R133). -/
  | addrOf (p : Position)
  /-- `SET_MASK p, m`, OP = 0x4 (R134). -/
  | setMask (p : Position) (m : Mask)
  /-- `SET_CHAR p, c`, OP = 0x5 (R135). -/
  | setChar (p : Position) (c : CodePoint)
  /-- `SET_DOT p, en`, OP = 0x6 (R136). -/
  | setDot (p : Position) (en : Bool)
  /-- `TOGGLE_DOT p`, OP = 0x7 (R137). -/
  | toggleDot (p : Position)
  /-- `CLEAR`, OP = 0x8 (R138). -/
  | clear
  /-- `TXT_START`, OP = 0x9 (R103). -/
  | txtStart
  /-- `TXT_CHAR c`, OP = 0xA (R104). -/
  | txtChar (c : CodePoint)
  /-- `RAW_BYTES`, OP = 0xB (R139). -/
  | rawBytes
  /-- `FLUSH`, OP = 0xC (R160). -/
  | flush
  /-- `POS_CHECK n`, OP = 0xD (R140). -/
  | posCheck (n : PosInt)
  deriving DecidableEq, Repr

end Sys2Proof
end

