-- ==== Sys2Proof/WellFormed.lean ====
section
/-! DEFINITION. Which command words are legal (spec/30_encoding.md R63), written from the "must be zero" column of R62 and
apart from the decoder. A term of Instr needs no check of its own: its operand types are bounded by construction
(R45, R130), so what can be ill-formed is a command WORD. -/

namespace Sys2Proof

/-- Which fields of the command word an opcode uses (the "fields used" column of R62): the position field, the enable
field, and how many low bits of DATA. Every other field "must be zero". -/
structure UsedFields where
  pos : Bool
  en : Bool
  dataBits : Nat
  deriving DecidableEq, Repr

/-- The rows of R62 by opcode number; `none` for the reserved opcodes 0x0, 0xE and 0xF (R63 (a)). -/
def usedFields : Nat → Option UsedFields
  | 0x1 => some ⟨false, false, 21⟩   -- LOOKUP
  | 0x2 => some ⟨false, false, 21⟩   -- CHK_LOOKUP
  | 0x3 => some ⟨true, false, 0⟩     -- ADDR_OF
  | 0x4 => some ⟨true, false, 16⟩    -- SET_MASK
  | 0x5 => some ⟨true, false, 21⟩    -- SET_CHAR
  | 0x6 => some ⟨true, true, 0⟩      -- SET_DOT
  | 0x7 => some ⟨true, false, 0⟩     -- TOGGLE_DOT
  | 0x8 => some ⟨false, false, 0⟩    -- CLEAR
  | 0x9 => some ⟨false, false, 0⟩    -- TXT_START
  | 0xA => some ⟨false, false, 21⟩   -- TXT_CHAR
  | 0xB => some ⟨false, false, 0⟩    -- RAW_BYTES
  | 0xC => some ⟨false, false, 0⟩    -- FLUSH
  | 0xD => some ⟨false, false, 21⟩   -- POS_CHECK
  | _ => none

/-- R63: a word is legal when its opcode is not reserved (a), `RSV` is 0 (b) and every field its row marks "must be zero"
is 0 (c). The fields are those of R61: OP [31:28], POS [27:26], EN [25], RSV [24:21], DATA [20:0]. -/
def legalWord (w : CmdWord) : Bool :=
  match usedFields (w.toNat / 2 ^ 28) with
  | none => false
  | some u =>
    decide (w.toNat / 2 ^ 21 % 2 ^ 4 = 0)
      && (u.pos || decide (w.toNat / 2 ^ 26 % 2 ^ 2 = 0))
      && (u.en || decide (w.toNat / 2 ^ 25 % 2 = 0))
      && decide (w.toNat % 2 ^ 21 < 2 ^ u.dataBits)

end Sys2Proof
end

