-- ==== Sys2Proof/Decode.lean ====
section
/-! DEFINITION. The decoder of command words, total and rejecting by name (spec/30_encoding.md R61, R62, R63, R66), and after it
the encoder from the same tables. -/

namespace Sys2Proof

/-! ## The fields of a command word (R61) -/

/-- `OP`, bits 31:28. -/
def opField (w : CmdWord) : BitVec 4 := w.extractLsb' 28 4

/-- `POS`, bits 27:26. -/
def posField (w : CmdWord) : BitVec 2 := w.extractLsb' 26 2

/-- `EN`, bit 25. -/
def enField (w : CmdWord) : BitVec 1 := w.extractLsb' 25 1

/-- `RSV`, bits 24:21. -/
def rsvField (w : CmdWord) : BitVec 4 := w.extractLsb' 21 4

/-- `DATA`, bits 20:0. -/
def dataField (w : CmdWord) : BitVec 21 := w.extractLsb' 0 21

/-- The position operand `p = zext(CMD[27:26])` (R66): always a valid position. -/
def posOperand (w : CmdWord) : Position := (posField w).toFin

/-- The enable operand, 1 meaning true (R66). -/
def enOperand (w : CmdWord) : Bool := enField w = 1#1

/-- The mask operand `m = CMD[15:0]` (R66). -/
def maskOperand (w : CmdWord) : Mask := w.extractLsb' 0 16

/-- `DATA[20:16]`, which SET_MASK's row marks "must be zero" (R62). -/
def dataHighField (w : CmdWord) : BitVec 5 := w.extractLsb' 16 5

/-! ## The decoder -/

/-- Why a word is illegal (R63). -/
inductive DecodeError where
  /-- R63 (a): the opcode is 0x0, 0xE or 0xF. -/
  | reservedOpcode
  /-- R63 (b): `RSV` is not 0. -/
  | reservedField
  /-- R63 (c): a field the opcode's row marks "must be zero" is not zero. -/
  | mustBeZero
  deriving DecidableEq, Repr

/-- R63 (c): the command, where its must-be-zero fields are zero. -/
def requireZero (zero : Bool) (i : Instr) : Except DecodeError Instr :=
  if zero then .ok i else .error .mustBeZero

/-- The command a word whose `RSV` is 0 stands for, by its opcode (R62). -/
def decodeOp (w : CmdWord) : Except DecodeError Instr :=
  match (opField w).toNat with
  | 0x1 => requireZero (posField w == 0#2 && enField w == 0#1) (.lookup (dataField w))
  | 0x2 => requireZero (posField w == 0#2 && enField w == 0#1) (.chkLookup (dataField w))
  | 0x3 => requireZero (enField w == 0#1 && dataField w == 0#21) (.addrOf (posOperand w))
  | 0x4 => requireZero (enField w == 0#1 && dataHighField w == 0#5) (.setMask (posOperand w) (maskOperand w))
  | 0x5 => requireZero (enField w == 0#1) (.setChar (posOperand w) (dataField w))
  | 0x6 => requireZero (dataField w == 0#21) (.setDot (posOperand w) (enOperand w))
  | 0x7 => requireZero (enField w == 0#1 && dataField w == 0#21) (.toggleDot (posOperand w))
  | 0x8 => requireZero (posField w == 0#2 && enField w == 0#1 && dataField w == 0#21) .clear
  | 0x9 => requireZero (posField w == 0#2 && enField w == 0#1 && dataField w == 0#21) .txtStart
  | 0xA => requireZero (posField w == 0#2 && enField w == 0#1) (.txtChar (dataField w))
  | 0xB => requireZero (posField w == 0#2 && enField w == 0#1 && dataField w == 0#21) .rawBytes
  | 0xC => requireZero (posField w == 0#2 && enField w == 0#1 && dataField w == 0#21) .flush
  | 0xD => requireZero (posField w == 0#2 && enField w == 0#1) (.posCheck (dataField w))
  | _ => .error .reservedOpcode

/-- The decoder: total on every 32-bit word; an illegal word (R63) is rejected by name. -/
def decode (w : CmdWord) : Except DecodeError Instr :=
  if rsvField w = 0#4 then decodeOp w else .error .reservedField

/-! ## The encoder -/

/-- A command word from its five fields (R61). -/
def mkWord (op : BitVec 4) (pos : BitVec 2) (en : BitVec 1) (rsv : BitVec 4) (data : BitVec 21) : CmdWord :=
  op ++ pos ++ en ++ rsv ++ data

/-- A position as the `POS` field (R66). -/
def posBits (p : Position) : BitVec 2 := BitVec.ofFin p

/-- The word of a command (R62). -/
def encode : Instr → CmdWord
  | .lookup c => mkWord 0x1#4 0#2 0#1 0#4 c
  | .chkLookup c => mkWord 0x2#4 0#2 0#1 0#4 c
  | .addrOf p => mkWord 0x3#4 (posBits p) 0#1 0#4 0#21
  | .setMask p m => mkWord 0x4#4 (posBits p) 0#1 0#4 (m.setWidth 21)
  | .setChar p c => mkWord 0x5#4 (posBits p) 0#1 0#4 c
  | .setDot p en => mkWord 0x6#4 (posBits p) (BitVec.ofBool en) 0#4 0#21
  | .toggleDot p => mkWord 0x7#4 (posBits p) 0#1 0#4 0#21
  | .clear => mkWord 0x8#4 0#2 0#1 0#4 0#21
  | .txtStart => mkWord 0x9#4 0#2 0#1 0#4 0#21
  | .txtChar c => mkWord 0xA#4 0#2 0#1 0#4 c
  | .rawBytes => mkWord 0xB#4 0#2 0#1 0#4 0#21
  | .flush => mkWord 0xC#4 0#2 0#1 0#4 0#21
  | .posCheck n => mkWord 0xD#4 0#2 0#1 0#4 n

/-- The command read from an instruction whose bits are `w`, numbered as spec/opcode_table.json numbers them. Every
command is one 32-bit word (R60), so the bits above `nbits` are 0 and those above 31 do not exist. -/
def decodeTableWord (nbits w : Nat) : Option Instr :=
  match decode (BitVec.ofNat 32 (w % 2 ^ nbits)) with
  | .ok i => some i
  | .error _ => none

end Sys2Proof
end

