-- ==== Sys2Proof/Config.lean ====
section
/-! DEFINITION. The parameters of the block (spec/00_scope.md R6, R7): the named constants, the parameters that are configuration
with the values R6 takes, the type of the device's answers, and the free value of an answer nobody has written down (spec/92_eei_decisions.md D15). The Glyph ROM
is state (spec/10_state.md R20): its default contents stand in Machine/GlyphRom.lean. -/

namespace Sys2Proof

/-- `PRINT_LO`, the lowest mapped code point (R6). -/
abbrev Config.printLo : Nat := 0x20

/-- `PRINT_HI`, the highest mapped code point (R6). -/
abbrev Config.printHi : Nat := 0x7E

/-- `UNKNOWN_CHAR` = '?' (R6, R83; spec/90_conflicts.md C4). -/
def Config.unknownChar : CodePoint := 0x3F

/-- The dot character '.' (R68). -/
def Config.dotChar : CodePoint := 0x2E

/-- The parameters of R6 that R7 calls configuration, beside the Glyph ROM and the device's answers. `State.params` holds them,
so that every other instantiation is a state too: "another instantiation changes no rule" (R7). -/
structure Params where
  /-- `DOT_MASK`, the decimal-point bit. -/
  dotMask : Mask
  /-- `BASE_ADDR`, the device display-RAM address FLUSH writes from. The width of the device's address space is not given
  (spec/20_memory.md R41), so it is a number. DESIGN CHOICE, notes/assumptions/10.md. -/
  baseAddr : Nat
  deriving DecidableEq, Repr

/-- The values R6 takes: `DOT_MASK` = 0x4000, bit 6 of the high byte (spec/90_conflicts.md C2), and `BASE_ADDR` = 0x00 (D14). -/
def Config.params : Params where
  dotMask := 0x4000
  baseAddr := 0x00

/-- `TERR`, the opaque transport-error value: 64 bits the block never inspects (R6, R164). -/
abbrev TErr := BitVec 64

/-- What the Device Writer answers to one `write` call: `Result<(), TransportError>` (R161). -/
inductive DevReply where
  | ok
  | err (e : TErr)
  deriving DecidableEq, Repr, Inhabited

/-- FREE VALUE: what becomes of the n-th `write` call where no answer is given in `State.devAnswers`: the device's answer, or
`none` when the device never answers (R161: "a model quantifies over both outcomes and every e"; D15: a draw under no law;
R165, R199: the wait may be infinite). It has no body, so nothing in Lean can say which it is. DESIGN CHOICE,
notes/assumptions/3.md. -/
opaque Config.deviceReply : Nat → Option DevReply

end Sys2Proof
end

