-- ==== Sys2Proof/Machine/GlyphRom.lean ====
section
/-! DEFINITION. The default contents of the Glyph ROM: the table of spec/40_glyph_rom.md R84, one 16-bit word for each of the
95 code points 0x20..0x7E in order. The spec marks the table as its own instantiation of the parameter GLYPH_ROM
(D7, from general knowledge); notes/assumptions/5.md. -/

namespace Sys2Proof.Machine

/-- R84, code points 0x20..0x2F. -/
def glyphRom20 : Vector Mask 16 :=
  #v[0x0000, 0x0006, 0x0220, 0x12CE, 0x12ED, 0x0C24, 0x235D, 0x0400,
    0x2400, 0x0900, 0x3FC0, 0x12C0, 0x0800, 0x00C0, 0x4000, 0x0C00]

/-- R84, code points 0x30..0x3F. -/
def glyphRom30 : Vector Mask 16 :=
  #v[0x0C3F, 0x0006, 0x00DB, 0x008F, 0x00E6, 0x2069, 0x00FD, 0x0007,
    0x00FF, 0x00EF, 0x1200, 0x0A00, 0x2400, 0x00C8, 0x0900, 0x1083]

/-- R84, code points 0x40..0x4F. -/
def glyphRom40 : Vector Mask 16 :=
  #v[0x02BB, 0x00F7, 0x128F, 0x0039, 0x120F, 0x00F9, 0x0071, 0x00BD,
    0x00F6, 0x1209, 0x001E, 0x2470, 0x0038, 0x0536, 0x2136, 0x003F]

/-- R84, code points 0x50..0x5F. -/
def glyphRom50 : Vector Mask 16 :=
  #v[0x00F3, 0x203F, 0x20F3, 0x00ED, 0x1201, 0x003E, 0x0C30, 0x2836,
    0x2D00, 0x1500, 0x0C09, 0x0039, 0x2100, 0x000F, 0x0C03, 0x0008]

/-- R84, code points 0x60..0x6F. -/
def glyphRom60 : Vector Mask 16 :=
  #v[0x0100, 0x1058, 0x2078, 0x00D8, 0x088E, 0x0858, 0x0071, 0x048E,
    0x1070, 0x1000, 0x000E, 0x3600, 0x0030, 0x10D4, 0x1050, 0x00DC]

/-- R84, code points 0x70..0x7E. -/
def glyphRom70 : Vector Mask 15 :=
  #v[0x0170, 0x0486, 0x0050, 0x2088, 0x0078, 0x001C, 0x2004, 0x2814,
    0x28C0, 0x200C, 0x0848, 0x0949, 0x1200, 0x2489, 0x0520]

/-- R84: the words of the ROM; index k holds the word of code point 0x20 + k. -/
def glyphRom : Vector Mask 95 :=
  glyphRom20 ++ glyphRom30 ++ glyphRom40 ++ glyphRom50 ++ glyphRom60 ++ glyphRom70

end Sys2Proof.Machine
end

