-- ==== Sys2Proof/Machine/State.lean ====
section
/-! DEFINITION. The state of the machine. The block's own state is `db`, `cur`, `fst` and `rom`, exactly the table of
spec/10_state.md R20. The other fields are the model's: what R20 calls "parameters of the step" (the configuration, the
host's command stream, the device's answers), held here as plain data, and the two output ports as the last step drove them. -/

namespace Sys2Proof.Machine

/-- The dot-folding state `FST` (R26). Its two-bit encoding is `fstCode` (Machine/Flags.lean): NONE = 0, CHAR = 1, FOLD = 2;
the encoding 3 "is never reached" and has no constructor (DESIGN CHOICE, notes/assumptions/8.md). -/
inductive FoldState where
  /-- `NONE`: there is no foldable predecessor. -/
  | none
  /-- `CHAR`: the last character was a non-dot written at `DB[CUR-1]`. -/
  | char
  /-- `FOLD`: the last character was a dot OR-ed into `DB[CUR-1]`. -/
  | fold
  deriving DecidableEq, Repr

/-- The response statuses (spec/30_encoding.md R65); their numbers are `statusCode` (Machine/Ops.lean). -/
inductive Status where
  /-- 0 `OK`: a legal command that does not fail. -/
  | ok
  /-- 1 `NO_MAPPING`: CHK_LOOKUP of an unmapped character. -/
  | noMapping
  /-- 2 `INVALID_POSITION`: POS_CHECK with n ≥ N. -/
  | invalidPosition
  /-- 3 `TRANSPORT_ERROR`: FLUSH when the device answers `Err(e)`. -/
  | transportError
  /-- 4 `ILLEGAL`: an illegal command word. -/
  | illegal
  deriving DecidableEq, Repr

/-- One response, `STATUS` and `RDATA[63:0]` (R64). -/
structure Response where
  status : Status
  rdata : RData
  deriving DecidableEq, Repr

/-- One call on the Device Writer port, `write(base_address, bytes)` (spec/43_device_port.md R160, R161). -/
structure DevWrite where
  base : Nat
  bytes : Vector Byte 8
  deriving DecidableEq, Repr

/-- What the outside presents to the block in one step: a command word on the command port (R10, R30), or the reset event
(spec/70_reset_and_hazards.md R190: "an event of the block, not a command"). -/
inductive HostInput where
  | command (w : CmdWord)
  | reset
  deriving DecidableEq, Repr

/-- The state. -/
structure State where
  /-- `DB[0..3]`, the display buffer: one 16-bit mask per digit position (R20, R21). -/
  db : Vector Mask 4
  /-- `CUR`, the dot-folding cursor: 3 bits, values 0..N (R20, R25). -/
  cur : BitVec 3
  /-- `FST`, the dot-folding state (R20, R26). -/
  fst : FoldState
  /-- `ROM`, the Glyph ROM: 95 constant 16-bit words, index k for code point 0x20 + k (R20, R28). -/
  rom : Vector Mask 95
  /-- MODEL: the configuration of the block, fixed while it runs (R20 "the configuration of 00_scope.md rule R6", R7;
  notes/assumptions/10.md). -/
  params : Params
  /-- MODEL: what the host presents next, first first (R20 "the command stream from the host"; notes/assumptions/2.md). -/
  host : List HostInput
  /-- MODEL: the device's answers to the coming `write` calls, first first; `none` is a call the device never answers
  (R161, R165; notes/assumptions/3.md, 4.md). -/
  devAnswers : List (Option DevReply)
  /-- MODEL: how many `write` calls were made; the index of the free value `Config.deviceReply`. -/
  devCalls : Nat
  /-- MODEL: the response port as the last step drove it; `none` when the last step ran no command (R64). -/
  resp : Option Response
  /-- MODEL: the Device Writer call the last step made, if it made one (R161). -/
  devOut : Option DevWrite
  deriving DecidableEq, Repr

/-- Why the machine stops. -/
inductive Fault where
  /-- Raised by FLUSH alone, when the device never answers its `write` call: the block waits for ever, and R165 asks for "a
  stuck step, not a step that completes". Safe: the machine stops where the hardware hangs. DESIGN CHOICE, notes/assumptions/4.md. -/
  | deviceSilent
  /-- Raised by TXT_CHAR alone, when `DB[CUR]` or `DB[CUR-1]` would lie outside 0..3: a state R27 excludes and no run from
  reset reaches, for which the spec gives no effect. Safe: the machine stops. DEDUCED, notes/assumptions/7.md. -/
  | cursorOutOfRange
  deriving DecidableEq, Repr

/-- Why an instruction has no meaning. No instruction of this machine is refused. -/
inductive Refusal where
  /-- An arm of `exec` whose instruction has no meaning yet: none. Safe: the machine stops. -/
  | notModelled (mnemonic : String)
  deriving DecidableEq, Repr

/-- The machine right after reset (R32, R190): `DB` zero, `CUR` 0, `FST` NONE, the ROM its constant contents. The model's own
fields: the parameters the values of R6, nothing presented, no answer written down, no call made, both ports undriven (DESIGN CHOICE, notes/assumptions/6.md). -/
def State.reset : State where
  db := Vector.replicate 4 0#16
  cur := 0#3
  fst := .none
  rom := glyphRom
  params := Config.params
  host := []
  devAnswers := []
  devCalls := 0
  resp := none
  devOut := none

end Sys2Proof.Machine
end

