-- ==== Sys2Proof/Machine/Ops.lean ====
section
/-! DEFINITION. The named operations over state: the two views of the display buffer (spec/20_memory.md R40), the ROM read
(spec/40_glyph_rom.md R82), the encoder registers, the response port with `respond` and `raise` (spec/00_scope.md R9), the
Device Writer call (spec/43_device_port.md R160), and the reset event (spec/70_reset_and_hazards.md R190). -/

namespace Sys2Proof.Machine

/-! ## The display buffer: 16-bit view -/

/-- `DB[p]` (R9). -/
def readMask (s : State) (p : Position) : Mask := s.db[p.val]

/-- `DB[p] <- m` (R9). -/
def writeMask (p : Position) (m : Mask) (s : State) : State := { s with db := s.db.set p.val m }

/-- `DB[p] <- 0x0000` for every p (R138). -/
def clearBuffer (s : State) : State := { s with db := Vector.replicate 4 0#16 }

/-! ## The display buffer: byte view (R40, R43; DESIGN CHOICE, notes/assumptions/11.md) -/

/-- `k >> 1`: the digit a byte address belongs to. -/
def byteDigit (k : ByteAddr) : Position := ⟨k.val / 2, by omega⟩

/-- The low byte of a mask, bits 7:0. -/
def lowByte (m : Mask) : Byte := m.extractLsb' 0 8

/-- The high byte of a mask, bits 15:8. -/
def highByte (m : Mask) : Byte := m.extractLsb' 8 8

/-- A mask from its high and its low byte, `{high, low}` (R44). -/
def maskOfBytes (high low : Byte) : Mask := high ++ low

/-- `MemRead(k, 1)` (R40). -/
def memRead (s : State) (k : ByteAddr) : Byte :=
  if k.val % 2 = 0 then lowByte (readMask s (byteDigit k)) else highByte (readMask s (byteDigit k))

/-- `MemWrite(k, 1, v)` (R40). No command uses it: every write goes through a 16-bit `DB[p]`. -/
def memWrite (k : ByteAddr) (v : Byte) (s : State) : State :=
  let m := readMask s (byteDigit k)
  if k.val % 2 = 0 then writeMask (byteDigit k) (maskOfBytes (highByte m) v) s
  else writeMask (byteDigit k) (maskOfBytes v (lowByte m)) s

/-- The low byte's address of digit p, `2p` (R131). -/
def addrLow (p : Position) : ByteAddr := ⟨2 * p.val, by omega⟩

/-- The high byte's address of digit p, `2p + 1` (R131). -/
def addrHigh (p : Position) : ByteAddr := ⟨2 * p.val + 1, by omega⟩

/-- The wire bytes `b[k] = MemRead(k, 1)`, k = 0..7 (R139, R160). -/
def wireBytes (s : State) : Vector Byte 8 :=
  #v[memRead s 0, memRead s 1, memRead s 2, memRead s 3, memRead s 4, memRead s 5, memRead s 6, memRead s 7]

/-- The wire bytes as one 64-bit value with byte k at bits `[8k+7:8k]` (R139). -/
def wireWord (s : State) : RData :=
  memRead s 7 ++ memRead s 6 ++ memRead s 5 ++ memRead s 4 ++ memRead s 3 ++ memRead s 2 ++ memRead s 1 ++ memRead s 0

/-! ## The encoder registers (R25, R26) -/

/-- `CUR <- c` and `FST <- f`. -/
def setText (c : BitVec 3) (f : FoldState) (s : State) : State := { s with cur := c, fst := f }

/-! ## The response port (R64, R65) -/

/-- The number of a status (R65). -/
def statusCode : Status → BitVec 3
  | .ok => 0#3
  | .noMapping => 1#3
  | .invalidPosition => 2#3
  | .transportError => 3#3
  | .illegal => 4#3

/-- `respond(st, d)`: the response port carries `st` and `zext_64(d)` (R64). -/
def respond {n : Nat} (st : Status) (d : BitVec n) (s : State) : State :=
  { s with resp := some ⟨st, d.setWidth 64⟩ }

/-- `raise E(info)`: `respond(E, info)` with no state written by the command. The block has no traps (R9,
spec/60_exceptions.md R170): this is all an error does. -/
def raise {n : Nat} (e : Status) (info : BitVec n) (s : State) : Host.Outcome State Fault Refusal :=
  .next (respond e info s)

/-- A command that completes: `respond(OK, d)`. -/
def succeed {n : Nat} (d : BitVec n) (s : State) : Host.Outcome State Fault Refusal :=
  .next (respond .ok d s)

/-- `RDATA` of a command that returns nothing (R65). -/
def noData : RData := 0#64

/-! ## The Device Writer port (R160, R161) -/

/-- The call FLUSH makes, `write(BASE_ADDR, b[0..7])` (R160). -/
def flushCall (s : State) : DevWrite := ⟨s.params.baseAddr, wireBytes s⟩

/-- The device's answer to the next call: the one written down, or where none is the free value; `none` when the device never
answers (R161, R165, R199). -/
def devAnswer (s : State) : Option DevReply :=
  match s.devAnswers with
  | [] => Config.deviceReply s.devCalls
  | a :: _ => a

/-- One `DevWrite` call: the port carries the call and its answer is used up (R161, R163: one call per FLUSH). -/
def callDevice (d : DevWrite) (s : State) : State :=
  { s with devAnswers := s.devAnswers.tail, devCalls := s.devCalls + 1, devOut := some d }

/-- Where the bytes of a call are meant to go: byte k to device address `base + k` (R160, D24: "this spec's reading"). That the
address does not wrap is a DESIGN CHOICE, notes/assumptions/10.md. What the device does with the bytes is out of scope (R162). -/
def devCells (d : DevWrite) : List Host.Cell :=
  (List.finRange 8).map fun k => (d.base + k.val, d.bytes[k.val])

/-! ## Between commands -/

/-- A step begins: the next input is taken from the host's stream, and no port is driven yet (R64: the response belongs to
the current command and is not stored). -/
def beginStep (s : State) : State := { s with host := s.host.tail, resp := none, devOut := none }

/-- The reset event: `DB`, `CUR` and `FST` take their reset values, the ROM and the configuration stay, and no Device Writer call is
made (R32, R190). -/
def resetBlock (s : State) : State := { s with db := Vector.replicate 4 0#16, cur := 0#3, fst := .none }

/-- An illegal command word: no state is written, no device call is made, and the answer is `ILLEGAL` with RDATA 0
(R63, R173). -/
def execIllegal (s : State) : Host.Outcome State Fault Refusal := raise .illegal noData s

end Sys2Proof.Machine
end

