-- ==== Sys2Proof/Machine/Operands.lean ====
section
/-! DEFINITION. Operand forms: mapped and unmapped characters and the glyph of a character (spec/30_encoding.md R67, R68;
spec/40_glyph_rom.md R82, R83, R86), a valid position integer (spec/42_display_buffer.md R140), the address pair of ADDR_OF
(R133), and the digits the cursor names (spec/41_dot_folding.md R104). -/

namespace Sys2Proof.Machine

/-- A mapped character: `0x20 ≤ c ≤ 0x7E`, compared unsigned (R67, R143). -/
abbrev Mapped (c : CodePoint) : Prop := Config.printLo ≤ c.toNat ∧ c.toNat ≤ Config.printHi

/-- `ROM(c)`, defined only for a mapped c (R82). -/
def romRead (rom : Vector Mask 95) (c : CodePoint) (h : Mapped c) : Mask :=
  rom[c.toNat - Config.printLo]'(by
    have := h.1
    have := h.2
    simp only [Config.printLo, Config.printHi] at *
    omega)

/-- The unchecked lookup: `ROM(c)` of a mapped character, the unknown glyph `ROM('?')` of every other (R83, R86). -/
def glyph (rom : Vector Mask 95) (c : CodePoint) : Mask :=
  if h : Mapped c then romRead rom c h else romRead rom Config.unknownChar (by decide)

/-- The dot character: `c == '.'`, and no other code point (R68). -/
def isDot (c : CodePoint) : Bool := c == Config.dotChar

/-- `n < N`, compared unsigned (R140, R143). -/
def validPosition (n : PosInt) : Bool := decide (n.toNat < 4)

/-- `{ (2p+1)[7:0], (2p)[7:0] }` (R133). -/
def addrPair (p : Position) : BitVec 16 := BitVec.ofNat 8 (addrHigh p).val ++ BitVec.ofNat 8 (addrLow p).val

/-- The digit `CUR` names, where there is one (R104: "only used when CUR < N"). -/
def cursorDigit (cur : BitVec 3) : Option Position :=
  if h : cur.toNat < 4 then some ⟨cur.toNat, h⟩ else none

/-- The digit `CUR-1` names, where there is one (R104: used "where CUR ≥ 1"). -/
def previousDigit (cur : BitVec 3) : Option Position :=
  if h : 1 ≤ cur.toNat ∧ cur.toNat - 1 < 4 then some ⟨cur.toNat - 1, h.2⟩ else none

end Sys2Proof.Machine
end

