-- ==== Sys2Proof/Machine/Flags.lean ====
section
/-! DEFINITION. The block has no flags or condition codes other than `FST` (spec/10_state.md R31). This file holds the encoding
of `FST` (R26) and the operations on the one distinguished bit of a mask, `DOT_MASK` (spec/42_display_buffer.md R136, R137;
spec/41_dot_folding.md R107, R108). -/

namespace Sys2Proof.Machine

/-- The two-bit encoding of `FST` (R26). -/
def fstCode : FoldState → BitVec 2
  | .none => 0#2
  | .char => 1#2
  | .fold => 2#2

/-- `m | DOT_MASK`. -/
def withDot (dot m : Mask) : Mask := m ||| dot

/-- `m & ~DOT_MASK`. -/
def withoutDot (dot m : Mask) : Mask := m &&& ~~~dot

/-- `m ^ DOT_MASK`. -/
def flipDot (dot m : Mask) : Mask := m ^^^ dot

/-- The standalone dot glyph (R102). -/
def standaloneDot (p : Params) : Mask := p.dotMask

end Sys2Proof.Machine
end

