-- ==== Sys2Proof/Machine/Buffer.lean ====
section
/-! DEFINITION. The display buffer commands ADDR_OF, SET_MASK, SET_CHAR, SET_DOT, TOGGLE_DOT, CLEAR, RAW_BYTES and POS_CHECK
(spec/42_display_buffer.md R133 to R140). None of them reads or writes `CUR` or `FST` (R142). -/

namespace Sys2Proof.Machine

/-- `ADDR_OF p` (R133): `RDATA[7:0]` = 2p, `RDATA[15:8]` = 2p+1. -/
def execAddrOf (p : Position) (s : State) : Host.Outcome State Fault Refusal :=
  succeed (addrPair p) s

/-- `SET_MASK p, m` (R134). -/
def execSetMask (p : Position) (m : Mask) (s : State) : Host.Outcome State Fault Refusal :=
  succeed noData (writeMask p m s)

/-- `SET_CHAR p, c` (R135): the unchecked lookup, bypassing dot folding. -/
def execSetChar (p : Position) (c : CodePoint) (s : State) : Host.Outcome State Fault Refusal :=
  succeed noData (writeMask p (glyph s.rom c) s)

/-- `SET_DOT p, en` (R136). -/
def execSetDot (p : Position) (en : Bool) (s : State) : Host.Outcome State Fault Refusal :=
  succeed noData (writeMask p (if en then withDot s.params.dotMask (readMask s p) else withoutDot s.params.dotMask (readMask s p)) s)

/-- `TOGGLE_DOT p` (R137). -/
def execToggleDot (p : Position) (s : State) : Host.Outcome State Fault Refusal :=
  succeed noData (writeMask p (flipDot s.params.dotMask (readMask s p)) s)

/-- `CLEAR` (R138). -/
def execClear (s : State) : Host.Outcome State Fault Refusal :=
  succeed noData (clearBuffer s)

/-- `RAW_BYTES` (R139). -/
def execRawBytes (s : State) : Host.Outcome State Fault Refusal :=
  succeed (wireWord s) s

/-- `POS_CHECK n` (R140). -/
def execPosCheck (n : PosInt) (s : State) : Host.Outcome State Fault Refusal :=
  if validPosition n then succeed n s else raise .invalidPosition n s

end Sys2Proof.Machine
end

