-- ==== Sys2Proof/Machine/Device.lean ====
section
/-! DEFINITION. FLUSH and the Device Writer port (spec/43_device_port.md R160 to R165). -/

namespace Sys2Proof.Machine

/-- The response to the device's answer (R160): `OK`, or `TRANSPORT_ERROR` with the device's e "propagated unchanged"
(R164). -/
def respondReply (r : DevReply) (s : State) : State :=
  match r with
  | .ok => respond .ok noData s
  | .err e => respond .transportError e s

/-- `FLUSH` (R160): one call with the eight bytes of the buffer, which is unchanged whatever the answer; stuck where the
device never answers (R165).
DESIGN CHOICE, notes/assumptions/4.md: R165 says only that the step is stuck, not whether the unanswered call shows on the port;
here the fault leaves no next state, so neither `devOut` nor `devCalls` shows that call. -/
def execFlush (s : State) : Host.Outcome State Fault Refusal :=
  match devAnswer s with
  | some r => .next (respondReply r (callDevice (flushCall s) s))
  | none => .fault .deviceSilent

end Sys2Proof.Machine
end

