-- ==== Sys2Proof/Machine/Lookup.lean ====
section
/-! DEFINITION. The Glyph ROM commands LOOKUP and CHK_LOOKUP (spec/40_glyph_rom.md R86, R87). -/

namespace Sys2Proof.Machine

/-- `LOOKUP c` (R86): the glyph, with the fallback of an unmapped character; never an error. -/
def execLookup (c : CodePoint) (s : State) : Host.Outcome State Fault Refusal :=
  succeed (glyph s.rom c) s

/-- `CHK_LOOKUP c` (R87): the ROM word of a mapped character, else `NO_MAPPING` carrying the character. -/
def execChkLookup (c : CodePoint) (s : State) : Host.Outcome State Fault Refusal :=
  if h : Mapped c then succeed (romRead s.rom c h) s else raise .noMapping c s

end Sys2Proof.Machine
end

