-- ==== Sys2Proof/Machine/Text.lean ====
section
/-! DEFINITION. The dot-folding state machine: TXT_START and TXT_CHAR (spec/41_dot_folding.md R103 to R109). -/

namespace Sys2Proof.Machine

/-- `TXT_START` (R103): `CUR <- 0`, `FST <- NONE`; the buffer is not cleared. -/
def execTxtStart (s : State) : Host.Outcome State Fault Refusal :=
  succeed noData (setText 0#3 .none s)

/-- R106: a dot with no foldable predecessor takes a position of its own. -/
def dotStandalone (s : State) : Option State :=
  (cursorDigit s.cur).map fun p => setText (s.cur + 1#3) .none (writeMask p (standaloneDot s.params) s)

/-- R107: a dot after a non-dot is OR-ed into that character's mask; `CUR` does not advance. -/
def dotFold (s : State) : Option State :=
  (previousDigit s.cur).map fun q => setText s.cur .fold (writeMask q (withDot s.params.dotMask (readMask s q)) s)

/-- R108: the second consecutive dot undoes the fold of the first and takes a position of its own. -/
def dotEscape (s : State) : Option State :=
  match previousDigit s.cur, cursorDigit s.cur with
  | some q, some p =>
    some (setText (s.cur + 1#3) .none (writeMask p (standaloneDot s.params) (writeMask q (withoutDot s.params.dotMask (readMask s q)) s)))
  | _, _ => none

/-- R109: any other character writes its glyph at `DB[CUR]`, the whole mask, and `CUR` advances. -/
def writeGlyph (c : CodePoint) (s : State) : Option State :=
  (cursorDigit s.cur).map fun p => setText (s.cur + 1#3) .char (writeMask p (glyph s.rom c) s)

/-- One character (R104): discarded when `CUR = N` (R105), else by whether it is a dot and by `FST`. `none` where a digit the
rule names does not exist, which R27 excludes. -/
def consumeChar (c : CodePoint) (s : State) : Option State :=
  if s.cur = 4#3 then some s
  else if isDot c then
    match s.fst with
    | .none => dotStandalone s
    | .char => dotFold s
    | .fold => dotEscape s
  else writeGlyph c s

/-- `TXT_CHAR c` (R104). -/
def execTxtChar (c : CodePoint) (s : State) : Host.Outcome State Fault Refusal :=
  match consumeChar c s with
  | some t => succeed noData t
  | none => .fault .cursorOutOfRange

end Sys2Proof.Machine
end

