-- ==== Sys2Proof/Machine/Dispatch.lean ====
section
/-! DEFINITION. One arm per command of spec/30_encoding.md R62. -/

namespace Sys2Proof.Machine

def exec (i : Instr) (s : State) : Host.Outcome State Fault Refusal :=
  match i with
  | .lookup c => Sys2Proof.Machine.execLookup c s
  | .chkLookup c => Sys2Proof.Machine.execChkLookup c s
  | .addrOf p => Sys2Proof.Machine.execAddrOf p s
  | .setMask p m => Sys2Proof.Machine.execSetMask p m s
  | .setChar p c => Sys2Proof.Machine.execSetChar p c s
  | .setDot p en => Sys2Proof.Machine.execSetDot p en s
  | .toggleDot p => Sys2Proof.Machine.execToggleDot p s
  | .clear => Sys2Proof.Machine.execClear s
  | .txtStart => Sys2Proof.Machine.execTxtStart s
  | .txtChar c => Sys2Proof.Machine.execTxtChar c s
  | .rawBytes => Sys2Proof.Machine.execRawBytes s
  | .flush => Sys2Proof.Machine.execFlush s
  | .posCheck n => Sys2Proof.Machine.execPosCheck n s

end Sys2Proof.Machine
end

