-- ==== Sys2Proof/Machine/Step.lean ====
section
/-! DEFINITION. One step: the block takes what the host presents next (spec/00_scope.md R10, spec/20_memory.md R50, R51): a
command word, decoded and executed completely, or the reset event; where nothing is presented it idles. -/

namespace Sys2Proof.Machine

/-- One step of the block. An illegal word answers `ILLEGAL` (R63), and that check comes first (R173). -/
def step (s : State) : Host.Outcome State Fault Refusal :=
  match s.host with
  | [] => .next (beginStep s)
  | .reset :: _ => .next (resetBlock (beginStep s))
  | .command w :: _ =>
    match decode w with
    | .ok i => exec i (beginStep s)
    | .error _ => execIllegal (beginStep s)

/-- The state with the table word `w` presented next on the command port, before what the host presents now. Every command is
one 32-bit word (R60), so the bits above `nbits` are 0. -/
def State.withFetchWord (s : State) (nbits w : Nat) : State :=
  { s with host := .command (BitVec.ofNat 32 (w % 2 ^ nbits)) :: s.host }

end Sys2Proof.Machine
end

