-- ==== Sys2Proof/Laws/State.lean ====
section
/-! SUPPORT. One lemma per field per update of State: later proofs never unfold a record update. -/

namespace Sys2Proof.Machine

variable (s : State)

/-! ## writeMask -/

@[simp] theorem writeMask_db (p : Position) (m : Mask) : (writeMask p m s).db = s.db.set p.val m := rfl
@[simp] theorem writeMask_cur (p : Position) (m : Mask) : (writeMask p m s).cur = s.cur := rfl
@[simp] theorem writeMask_fst (p : Position) (m : Mask) : (writeMask p m s).fst = s.fst := rfl
@[simp] theorem writeMask_rom (p : Position) (m : Mask) : (writeMask p m s).rom = s.rom := rfl
@[simp] theorem writeMask_params (p : Position) (m : Mask) : (writeMask p m s).params = s.params := rfl
@[simp] theorem writeMask_host (p : Position) (m : Mask) : (writeMask p m s).host = s.host := rfl
@[simp] theorem writeMask_devAnswers (p : Position) (m : Mask) : (writeMask p m s).devAnswers = s.devAnswers := rfl
@[simp] theorem writeMask_devCalls (p : Position) (m : Mask) : (writeMask p m s).devCalls = s.devCalls := rfl
@[simp] theorem writeMask_resp (p : Position) (m : Mask) : (writeMask p m s).resp = s.resp := rfl
@[simp] theorem writeMask_devOut (p : Position) (m : Mask) : (writeMask p m s).devOut = s.devOut := rfl

/-! ## clearBuffer -/

@[simp] theorem clearBuffer_db : (clearBuffer s).db = Vector.replicate 4 0#16 := rfl
@[simp] theorem clearBuffer_cur : (clearBuffer s).cur = s.cur := rfl
@[simp] theorem clearBuffer_fst : (clearBuffer s).fst = s.fst := rfl
@[simp] theorem clearBuffer_rom : (clearBuffer s).rom = s.rom := rfl
@[simp] theorem clearBuffer_params : (clearBuffer s).params = s.params := rfl
@[simp] theorem clearBuffer_host : (clearBuffer s).host = s.host := rfl
@[simp] theorem clearBuffer_devAnswers : (clearBuffer s).devAnswers = s.devAnswers := rfl
@[simp] theorem clearBuffer_devCalls : (clearBuffer s).devCalls = s.devCalls := rfl
@[simp] theorem clearBuffer_resp : (clearBuffer s).resp = s.resp := rfl
@[simp] theorem clearBuffer_devOut : (clearBuffer s).devOut = s.devOut := rfl

/-! ## setText -/

@[simp] theorem setText_db (c : BitVec 3) (f : FoldState) : (setText c f s).db = s.db := rfl
@[simp] theorem setText_cur (c : BitVec 3) (f : FoldState) : (setText c f s).cur = c := rfl
@[simp] theorem setText_fst (c : BitVec 3) (f : FoldState) : (setText c f s).fst = f := rfl
@[simp] theorem setText_rom (c : BitVec 3) (f : FoldState) : (setText c f s).rom = s.rom := rfl
@[simp] theorem setText_params (c : BitVec 3) (f : FoldState) : (setText c f s).params = s.params := rfl
@[simp] theorem setText_host (c : BitVec 3) (f : FoldState) : (setText c f s).host = s.host := rfl
@[simp] theorem setText_devAnswers (c : BitVec 3) (f : FoldState) : (setText c f s).devAnswers = s.devAnswers := rfl
@[simp] theorem setText_devCalls (c : BitVec 3) (f : FoldState) : (setText c f s).devCalls = s.devCalls := rfl
@[simp] theorem setText_resp (c : BitVec 3) (f : FoldState) : (setText c f s).resp = s.resp := rfl
@[simp] theorem setText_devOut (c : BitVec 3) (f : FoldState) : (setText c f s).devOut = s.devOut := rfl

/-! ## respond -/

@[simp] theorem respond_db {n : Nat} (st : Status) (d : BitVec n) : (respond st d s).db = s.db := rfl
@[simp] theorem respond_cur {n : Nat} (st : Status) (d : BitVec n) : (respond st d s).cur = s.cur := rfl
@[simp] theorem respond_fst {n : Nat} (st : Status) (d : BitVec n) : (respond st d s).fst = s.fst := rfl
@[simp] theorem respond_rom {n : Nat} (st : Status) (d : BitVec n) : (respond st d s).rom = s.rom := rfl
@[simp] theorem respond_params {n : Nat} (st : Status) (d : BitVec n) : (respond st d s).params = s.params := rfl
@[simp] theorem respond_host {n : Nat} (st : Status) (d : BitVec n) : (respond st d s).host = s.host := rfl
@[simp] theorem respond_devAnswers {n : Nat} (st : Status) (d : BitVec n) : (respond st d s).devAnswers = s.devAnswers := rfl
@[simp] theorem respond_devCalls {n : Nat} (st : Status) (d : BitVec n) : (respond st d s).devCalls = s.devCalls := rfl
@[simp] theorem respond_resp {n : Nat} (st : Status) (d : BitVec n) : (respond st d s).resp = some ⟨st, d.setWidth 64⟩ := rfl
@[simp] theorem respond_devOut {n : Nat} (st : Status) (d : BitVec n) : (respond st d s).devOut = s.devOut := rfl

/-! ## callDevice -/

@[simp] theorem callDevice_db (d : DevWrite) : (callDevice d s).db = s.db := rfl
@[simp] theorem callDevice_cur (d : DevWrite) : (callDevice d s).cur = s.cur := rfl
@[simp] theorem callDevice_fst (d : DevWrite) : (callDevice d s).fst = s.fst := rfl
@[simp] theorem callDevice_rom (d : DevWrite) : (callDevice d s).rom = s.rom := rfl
@[simp] theorem callDevice_params (d : DevWrite) : (callDevice d s).params = s.params := rfl
@[simp] theorem callDevice_host (d : DevWrite) : (callDevice d s).host = s.host := rfl
@[simp] theorem callDevice_devAnswers (d : DevWrite) : (callDevice d s).devAnswers = s.devAnswers.tail := rfl
@[simp] theorem callDevice_devCalls (d : DevWrite) : (callDevice d s).devCalls = s.devCalls + 1 := rfl
@[simp] theorem callDevice_resp (d : DevWrite) : (callDevice d s).resp = s.resp := rfl
@[simp] theorem callDevice_devOut (d : DevWrite) : (callDevice d s).devOut = some d := rfl

/-! ## beginStep -/

@[simp] theorem beginStep_db : (beginStep s).db = s.db := rfl
@[simp] theorem beginStep_cur : (beginStep s).cur = s.cur := rfl
@[simp] theorem beginStep_fst : (beginStep s).fst = s.fst := rfl
@[simp] theorem beginStep_rom : (beginStep s).rom = s.rom := rfl
@[simp] theorem beginStep_params : (beginStep s).params = s.params := rfl
@[simp] theorem beginStep_host : (beginStep s).host = s.host.tail := rfl
@[simp] theorem beginStep_devAnswers : (beginStep s).devAnswers = s.devAnswers := rfl
@[simp] theorem beginStep_devCalls : (beginStep s).devCalls = s.devCalls := rfl
@[simp] theorem beginStep_resp : (beginStep s).resp = none := rfl
@[simp] theorem beginStep_devOut : (beginStep s).devOut = none := rfl

/-! ## resetBlock -/

@[simp] theorem resetBlock_db : (resetBlock s).db = Vector.replicate 4 0#16 := rfl
@[simp] theorem resetBlock_cur : (resetBlock s).cur = 0#3 := rfl
@[simp] theorem resetBlock_fst : (resetBlock s).fst = .none := rfl
@[simp] theorem resetBlock_rom : (resetBlock s).rom = s.rom := rfl
@[simp] theorem resetBlock_params : (resetBlock s).params = s.params := rfl
@[simp] theorem resetBlock_host : (resetBlock s).host = s.host := rfl
@[simp] theorem resetBlock_devAnswers : (resetBlock s).devAnswers = s.devAnswers := rfl
@[simp] theorem resetBlock_devCalls : (resetBlock s).devCalls = s.devCalls := rfl
@[simp] theorem resetBlock_resp : (resetBlock s).resp = s.resp := rfl
@[simp] theorem resetBlock_devOut : (resetBlock s).devOut = s.devOut := rfl

end Sys2Proof.Machine
end

