-- ==== Sys2Proof/Laws/Ops.lean ====
section
/-! SUPPORT. One lemma per shared operation, saying what it can do; later proofs cite these and do not unfold the operations. -/

namespace Sys2Proof.Machine

/-! ## The display buffer -/

@[simp] theorem readMask_writeMask (p q : Position) (m : Mask) (s : State) :
    readMask (writeMask q m s) p = if q = p then m else readMask s p := by
  simp [readMask, Vector.getElem_set, Fin.ext_iff]

theorem writeMask_readMask (p : Position) (s : State) : writeMask p (readMask s p) s = s := by
  simp [writeMask, readMask]

@[simp] theorem readMask_clearBuffer (p : Position) (s : State) : readMask (clearBuffer s) p = 0#16 := by
  simp [readMask]

@[simp] theorem readMask_setText (c : BitVec 3) (f : FoldState) (s : State) (p : Position) :
    readMask (setText c f s) p = readMask s p := rfl

@[simp] theorem readMask_respond {n : Nat} (st : Status) (d : BitVec n) (s : State) (p : Position) :
    readMask (respond st d s) p = readMask s p := rfl

@[simp] theorem readMask_callDevice (d : DevWrite) (s : State) (p : Position) :
    readMask (callDevice d s) p = readMask s p := rfl

@[simp] theorem readMask_beginStep (s : State) (p : Position) : readMask (beginStep s) p = readMask s p := rfl

/-- Two buffers that agree at every position are equal. -/
theorem db_ext {s t : State} (h : ∀ p : Position, readMask t p = readMask s p) : t.db = s.db := by
  apply Vector.ext
  intro i hi
  exact h ⟨i, hi⟩

/-- Equal buffers have equal bytes. -/
theorem memRead_congr {s t : State} (h : t.db = s.db) (k : ByteAddr) : memRead t k = memRead s k := by
  simp [memRead, readMask, h]

@[simp] theorem byteDigit_addrLow (p : Position) : byteDigit (addrLow p) = p := by
  ext; simp [byteDigit, addrLow]

@[simp] theorem byteDigit_addrHigh (p : Position) : byteDigit (addrHigh p) = p := by
  ext; simp [byteDigit, addrHigh]; omega

@[simp] theorem memRead_addrLow (s : State) (p : Position) : memRead s (addrLow p) = lowByte (readMask s p) := by
  simp only [memRead, byteDigit_addrLow]
  simp [addrLow]

@[simp] theorem memRead_addrHigh (s : State) (p : Position) : memRead s (addrHigh p) = highByte (readMask s p) := by
  simp only [memRead, byteDigit_addrHigh]
  rw [if_neg (by simp [addrHigh])]

/-- Every byte address is the low or the high byte of one digit (R40). -/
theorem byteAddr_cases (k : ByteAddr) : ∃ p : Position, k = addrLow p ∨ k = addrHigh p := by
  refine ⟨byteDigit k, ?_⟩
  simp only [addrLow, addrHigh, byteDigit, Fin.ext_iff]
  omega

/-- A 16-bit write changes no byte but the two of its digit (R131). -/
theorem memRead_writeMask_other (p : Position) (m : Mask) (s : State) (k : ByteAddr)
    (hl : k ≠ addrLow p) (hh : k ≠ addrHigh p) : memRead (writeMask p m s) k = memRead s k := by
  obtain ⟨q, rfl | rfl⟩ := byteAddr_cases k
  · simp [show p ≠ q by rintro rfl; exact hl rfl]
  · simp [show p ≠ q by rintro rfl; exact hh rfl]

@[simp] theorem lowByte_maskOfBytes (h l : Byte) : lowByte (maskOfBytes h l) = l := by
  ext i hi
  simp only [lowByte, maskOfBytes, BitVec.getElem_extractLsb', BitVec.getLsbD_append]
  simp [hi, BitVec.getLsbD_eq_getElem]

@[simp] theorem highByte_maskOfBytes (h l : Byte) : highByte (maskOfBytes h l) = h := by
  ext i hi
  simp only [highByte, maskOfBytes, BitVec.getElem_extractLsb', BitVec.getLsbD_append]
  simp [hi, BitVec.getLsbD_eq_getElem]

/-- A mask is its two bytes (R23, R44). -/
@[simp] theorem maskOfBytes_bytes (m : Mask) : maskOfBytes (highByte m) (lowByte m) = m := by
  apply BitVec.eq_of_getLsbD_eq
  intro i hi
  simp only [maskOfBytes, highByte, lowByte, BitVec.getLsbD_append, BitVec.getLsbD_extractLsb']
  split
  · simp [*]
  · simp [show 8 + (i - 8) = i by omega]; omega

@[simp] theorem addrLow_inj {p q : Position} : addrLow p = addrLow q ↔ p = q := by
  simp only [addrLow, Fin.ext_iff]
  omega

@[simp] theorem addrHigh_inj {p q : Position} : addrHigh p = addrHigh q ↔ p = q := by
  simp only [addrHigh, Fin.ext_iff]
  omega

@[simp] theorem addrLow_ne_addrHigh (p q : Position) : addrLow p ≠ addrHigh q := by
  simp only [addrLow, addrHigh, ne_eq, Fin.ext_iff]
  omega

@[simp] theorem addrHigh_ne_addrLow (p q : Position) : addrHigh p ≠ addrLow q := (addrLow_ne_addrHigh q p).symm

/-- A byte write at an even address keeps the high byte of its digit (R40). -/
@[simp] theorem memWrite_addrLow (p : Position) (v : Byte) (s : State) :
    memWrite (addrLow p) v s = writeMask p (maskOfBytes (highByte (readMask s p)) v) s := by
  simp only [memWrite, byteDigit_addrLow]
  exact if_pos (by simp [addrLow])

/-- A byte write at an odd address keeps the low byte of its digit (R40). -/
@[simp] theorem memWrite_addrHigh (p : Position) (v : Byte) (s : State) :
    memWrite (addrHigh p) v s = writeMask p (maskOfBytes v (lowByte (readMask s p))) s := by
  simp only [memWrite, byteDigit_addrHigh]
  exact if_neg (by simp [addrHigh])

/-! ## The encoder registers -/

/-- The encoding 3 of `FST` is never reached (R26, R27 (d)). -/
@[simp] theorem fstCode_ne_three (f : FoldState) : fstCode f ≠ 3#2 := by cases f <;> decide

/-- `CUR + 1` does not wrap when `CUR` names a digit (R143). -/
theorem cursor_succ {cur : BitVec 3} {p : Position} (h : cur.toNat = p.val) : (cur + 1#3).toNat = p.val + 1 := by
  have := p.isLt
  rw [BitVec.toNat_add]
  simp
  omega

/-! ## The response -/

@[simp] theorem succeed_eq {n : Nat} (d : BitVec n) (s : State) : succeed d s = .next (respond .ok d s) := rfl

@[simp] theorem raise_eq {n : Nat} (e : Status) (info : BitVec n) (s : State) :
    raise e info s = .next (respond e info s) := rfl

/-! ## Operands -/

/-- The mapped range in numbers (R67). -/
theorem mapped_iff {c : CodePoint} : Mapped c ↔ 0x20 ≤ c.toNat ∧ c.toNat ≤ 0x7E := Iff.rfl

/-- The ROM word of code point 0x20 + k is the word at index k (R28, R82). -/
theorem romRead_index (rom : Vector Mask 95) (c : CodePoint) (h : Mapped c) (k : Fin 95) (hk : c.toNat = 0x20 + k.val) :
    romRead rom c h = rom[k.val] := by
  simp [romRead, hk]

theorem glyph_mapped (rom : Vector Mask 95) (c : CodePoint) (h : Mapped c) : glyph rom c = romRead rom c h := by
  rw [glyph, dif_pos h]

theorem glyph_unmapped (rom : Vector Mask 95) (c : CodePoint) (h : ¬ Mapped c) :
    glyph rom c = glyph rom Config.unknownChar := by
  rw [glyph, dif_neg h, glyph_mapped]

theorem cursorDigit_eq {cur : BitVec 3} {p : Position} : cursorDigit cur = some p ↔ cur.toNat = p.val := by
  unfold cursorDigit
  split
  · simp [Fin.ext_iff]
  · simp; omega

theorem previousDigit_eq {cur : BitVec 3} {q : Position} : previousDigit cur = some q ↔ cur.toNat = q.val + 1 := by
  unfold previousDigit
  split
  · simp [Fin.ext_iff]; omega
  · simp; omega

theorem isDot_eq {c : CodePoint} : isDot c = true ↔ c = Config.dotChar := by simp [isDot]

/-! ## TXT_CHAR -/

/-- Everything one character can do (R104 to R109). -/
theorem consumeChar_cases {c : CodePoint} {s t : State} (h : consumeChar c s = some t) :
    (s.cur = 4#3 ∧ t = s)
    ∨ (c = Config.dotChar ∧ s.fst = .none ∧ ∃ p : Position, s.cur.toNat = p.val ∧
        t = setText (s.cur + 1#3) .none (writeMask p (standaloneDot s.params) s))
    ∨ (c = Config.dotChar ∧ s.fst = .char ∧ s.cur ≠ 4#3 ∧ ∃ q : Position, s.cur.toNat = q.val + 1 ∧
        t = setText s.cur .fold (writeMask q (withDot s.params.dotMask (readMask s q)) s))
    ∨ (c = Config.dotChar ∧ s.fst = .fold ∧ ∃ q p : Position, s.cur.toNat = q.val + 1 ∧ s.cur.toNat = p.val ∧
        t = setText (s.cur + 1#3) .none (writeMask p (standaloneDot s.params) (writeMask q (withoutDot s.params.dotMask (readMask s q)) s)))
    ∨ (c ≠ Config.dotChar ∧ ∃ p : Position, s.cur.toNat = p.val ∧
        t = setText (s.cur + 1#3) .char (writeMask p (glyph s.rom c) s)) := by
  unfold consumeChar at h
  split at h
  · exact .inl ⟨‹_›, by simpa using h.symm⟩
  · rename_i hcur
    split at h
    · rename_i hc
      rw [isDot_eq] at hc
      split at h
      · rename_i hf
        simp only [dotStandalone, Option.map_eq_some_iff, cursorDigit_eq] at h
        obtain ⟨p, hp, rfl⟩ := h
        exact .inr (.inl ⟨hc, hf, p, hp, rfl⟩)
      · rename_i hf
        simp only [dotFold, Option.map_eq_some_iff, previousDigit_eq] at h
        obtain ⟨q, hq, rfl⟩ := h
        exact .inr (.inr (.inl ⟨hc, hf, hcur, q, hq, rfl⟩))
      · rename_i hf
        unfold dotEscape at h
        split at h
        · rename_i q p hq hp
          rw [previousDigit_eq] at hq
          rw [cursorDigit_eq] at hp
          exact .inr (.inr (.inr (.inl ⟨hc, hf, q, p, hq, hp, by simpa using h.symm⟩)))
        · exact absurd h (by simp)
    · rename_i hc
      rw [isDot_eq] at hc
      simp only [writeGlyph, Option.map_eq_some_iff, cursorDigit_eq] at h
      obtain ⟨p, hp, rfl⟩ := h
      exact .inr (.inr (.inr (.inr ⟨hc, p, hp, rfl⟩)))

/-- TXT_CHAR answers `OK` in the state `consumeChar` gives. -/
theorem execTxtChar_next {c : CodePoint} {s t : State} (h : execTxtChar c s = .next t) :
    ∃ u, consumeChar c s = some u ∧ t = respond .ok noData u := by
  unfold execTxtChar at h
  split at h
  · exact ⟨_, ‹_›, by simpa using h.symm⟩
  · cases h

/-! ## FLUSH -/

@[simp] theorem devAnswer_cons (s : State) (a : Option DevReply) (rest : List (Option DevReply))
    (h : s.devAnswers = a :: rest) : devAnswer s = a := by
  simp [devAnswer, h]

/-- FLUSH makes one call, and answers what the device answers (R160, R164). -/
theorem execFlush_next {s t : State} (h : execFlush s = .next t) :
    ∃ r, devAnswer s = some r ∧ t = respondReply r (callDevice (flushCall s) s) := by
  unfold execFlush at h
  split at h
  · exact ⟨_, ‹_›, by simpa using h.symm⟩
  · cases h

/-- Where no answer is written down the free value decides (R161, R165). -/
@[simp] theorem devAnswer_nil (s : State) (h : s.devAnswers = []) : devAnswer s = Config.deviceReply s.devCalls := by
  simp [devAnswer, h]

/-- The two places where silence comes from: the list of answers, or the free value where the list is empty. -/
theorem devAnswer_eq_none {s : State} :
    devAnswer s = none ↔
      (∃ rest, s.devAnswers = none :: rest) ∨ (s.devAnswers = [] ∧ Config.deviceReply s.devCalls = none) := by
  cases h : s.devAnswers <;> simp [devAnswer, h]

/-- FLUSH stops for one reason: the device never answers (R165). -/
theorem execFlush_fault {s : State} {f : Fault} (h : execFlush s = .fault f) : f = .deviceSilent ∧ devAnswer s = none := by
  unfold execFlush at h
  split at h
  · cases h
  · exact ⟨by simpa using h.symm, ‹_›⟩

/-! The answer to a FLUSH touches the response port alone. -/

@[simp] theorem respondReply_db (r : DevReply) (s : State) : (respondReply r s).db = s.db := by cases r <;> rfl

@[simp] theorem respondReply_cur (r : DevReply) (s : State) : (respondReply r s).cur = s.cur := by cases r <;> rfl

@[simp] theorem respondReply_fst (r : DevReply) (s : State) : (respondReply r s).fst = s.fst := by cases r <;> rfl

@[simp] theorem respondReply_rom (r : DevReply) (s : State) : (respondReply r s).rom = s.rom := by cases r <;> rfl

@[simp] theorem respondReply_params (r : DevReply) (s : State) : (respondReply r s).params = s.params := by cases r <;> rfl

@[simp] theorem respondReply_host (r : DevReply) (s : State) : (respondReply r s).host = s.host := by cases r <;> rfl

@[simp] theorem respondReply_devAnswers (r : DevReply) (s : State) : (respondReply r s).devAnswers = s.devAnswers := by cases r <;> rfl

@[simp] theorem respondReply_devCalls (r : DevReply) (s : State) : (respondReply r s).devCalls = s.devCalls := by cases r <;> rfl

@[simp] theorem respondReply_devOut (r : DevReply) (s : State) : (respondReply r s).devOut = s.devOut := by cases r <;> rfl

/-! ## The reset event and the step -/

/-- The reset event gives the block the values of `State.reset` (R32, R190), whatever it held; the ROM keeps its own. -/
theorem resetBlock_eq_reset (s : State) :
    (resetBlock s).db = State.reset.db ∧ (resetBlock s).cur = State.reset.cur ∧ (resetBlock s).fst = State.reset.fst :=
  ⟨rfl, rfl, rfl⟩

/-- Everything a step can be: idle, the reset event, an illegal word, or one command. -/
theorem step_cases (s : State) :
    (s.host = [] ∧ step s = .next (beginStep s))
    ∨ (∃ rest, s.host = .reset :: rest ∧ step s = .next (resetBlock (beginStep s)))
    ∨ (∃ w rest e, s.host = .command w :: rest ∧ decode w = .error e ∧ step s = execIllegal (beginStep s))
    ∨ (∃ w rest i, s.host = .command w :: rest ∧ decode w = .ok i ∧ step s = exec i (beginStep s)) := by
  unfold step
  split
  · exact .inl ⟨‹_›, rfl⟩
  · exact .inr (.inl ⟨_, ‹_›, rfl⟩)
  · rename_i w rest hs
    split
    · exact .inr (.inr (.inr ⟨w, rest, _, hs, ‹_›, rfl⟩))
    · exact .inr (.inr (.inl ⟨w, rest, _, hs, ‹_›, rfl⟩))

/-- A word presented by `withFetchWord` is what the next step decodes. -/
theorem step_withFetchWord (s : State) (nbits w : Nat) :
    step (s.withFetchWord nbits w) =
      match decode (BitVec.ofNat 32 (w % 2 ^ nbits)) with
      | .ok i => exec i { s with resp := none, devOut := none }
      | .error _ => execIllegal { s with resp := none, devOut := none } := rfl

end Sys2Proof.Machine
end

