-- ==== Sys2Proof/Laws/Decode.lean ====
section
/-! SUPPORT. The bit-level facts about command words (R61), so that no later proof looks at single bits: the fields of a word made
of fields, a word as its fields, and the fields as numbers. -/

namespace Sys2Proof

section Fields
variable (op : BitVec 4) (pos : BitVec 2) (en : BitVec 1) (rsv : BitVec 4) (data : BitVec 21)

@[simp] theorem opField_mkWord : opField (mkWord op pos en rsv data) = op := by
  ext i hi
  simp only [opField, mkWord, BitVec.getElem_extractLsb', BitVec.getLsbD_append]
  simp [show ¬ 28 + i < 21 by omega, show ¬ 28 + i - 21 < 4 by omega, show ¬ 28 + i - 21 - 4 < 1 by omega,
    show ¬ 28 + i - 21 - 4 - 1 < 2 by omega, show 28 + i - 21 - 4 - 1 - 2 = i by omega, BitVec.getLsbD_eq_getElem, hi]

@[simp] theorem posField_mkWord : posField (mkWord op pos en rsv data) = pos := by
  ext i hi
  simp only [posField, mkWord, BitVec.getElem_extractLsb', BitVec.getLsbD_append]
  simp [show ¬ 26 + i < 21 by omega, show ¬ 26 + i - 21 < 4 by omega, show ¬ 26 + i - 21 - 4 < 1 by omega,
    show 26 + i - 21 - 4 - 1 = i by omega, BitVec.getLsbD_eq_getElem, hi]

@[simp] theorem enField_mkWord : enField (mkWord op pos en rsv data) = en := by
  ext i hi
  simp only [enField, mkWord, BitVec.getElem_extractLsb', BitVec.getLsbD_append]
  simp [show ¬ 25 + i < 21 by omega, show ¬ 25 + i - 21 < 4 by omega, show 25 + i - 21 - 4 = i by omega,
    BitVec.getLsbD_eq_getElem, hi]

@[simp] theorem rsvField_mkWord : rsvField (mkWord op pos en rsv data) = rsv := by
  ext i hi
  simp only [rsvField, mkWord, BitVec.getElem_extractLsb', BitVec.getLsbD_append]
  simp [show ¬ 21 + i < 21 by omega, show 21 + i - 21 = i by omega, BitVec.getLsbD_eq_getElem, hi]

@[simp] theorem dataField_mkWord : dataField (mkWord op pos en rsv data) = data := by
  ext i hi
  simp only [dataField, mkWord, BitVec.getElem_extractLsb', BitVec.getLsbD_append]
  simp [hi, BitVec.getLsbD_eq_getElem]

end Fields

/-- The mask operand is the low 16 bits of `DATA` (R66). -/
theorem maskOperand_eq (w : CmdWord) : maskOperand w = (dataField w).setWidth 16 := by
  ext i hi
  simp [maskOperand, dataField, show i < 21 by omega]

/-- The high part of `DATA` as a field of `DATA`. -/
theorem dataHighField_eq (w : CmdWord) : dataHighField w = (dataField w).extractLsb' 16 5 := by
  ext i hi
  simp [dataHighField, dataField]

/-- Every word is made of its five fields (R61). -/
theorem mkWord_fields (w : CmdWord) :
    mkWord (opField w) (posField w) (enField w) (rsvField w) (dataField w) = w := by
  apply BitVec.eq_of_getLsbD_eq
  intro i hi
  simp only [mkWord, opField, posField, enField, rsvField, dataField, BitVec.getLsbD_append, BitVec.getLsbD_extractLsb']
  split
  · simp [*]
  · split
    · simp [*, show 21 + (i - 21) = i by omega]
    · split
      · simp [show i = 25 by omega]
      · split
        · simp [show 26 + (i - 21 - 4 - 1) = i by omega]; omega
        · simp [show 28 + (i - 21 - 4 - 1 - 2) = i by omega]; omega

/-- `DATA[20:16]` is 0 exactly when `DATA` is a 16-bit mask (R62, SET_MASK). -/
theorem setWidth_mask_of_dataHigh (d : BitVec 21) (h : d.extractLsb' 16 5 = 0#5) : (d.setWidth 16).setWidth 21 = d := by
  apply BitVec.eq_of_toNat_eq
  have h' := congrArg BitVec.toNat h
  have := d.isLt
  simp [BitVec.extractLsb'_toNat, Nat.shiftRight_eq_div_pow] at h' ⊢
  omega

@[simp] theorem dataHigh_setWidth_mask (m : Mask) : (m.setWidth 21).extractLsb' 16 5 = 0#5 := by
  apply BitVec.eq_of_toNat_eq
  have := m.isLt
  simp [BitVec.extractLsb'_toNat, Nat.shiftRight_eq_div_pow]
  omega

@[simp] theorem posBits_toFin (p : Position) : (posBits p).toFin = p := rfl

@[simp] theorem posBits_posOperand (w : CmdWord) : posBits (posOperand w) = posField w := rfl

@[simp] theorem ofBool_enOperand (w : CmdWord) : BitVec.ofBool (enOperand w) = enField w := by
  have h : ∀ e : BitVec 1, BitVec.ofBool (decide (e = 1#1)) = e := by decide
  exact h _

/-- A word whose `RSV` is 0 decodes by its opcode. -/
@[simp] theorem decode_mkWord (op : BitVec 4) (pos : BitVec 2) (en : BitVec 1) (data : BitVec 21) :
    decode (mkWord op pos en 0#4 data) = decodeOp (mkWord op pos en 0#4 data) := by
  simp [decode]

@[simp] theorem posOperand_mkWord (op : BitVec 4) (pos : BitVec 2) (en : BitVec 1) (rsv : BitVec 4) (data : BitVec 21) :
    posOperand (mkWord op pos en rsv data) = pos.toFin := by
  simp [posOperand]

@[simp] theorem enOperand_mkWord (op : BitVec 4) (pos : BitVec 2) (en : BitVec 1) (rsv : BitVec 4) (data : BitVec 21) :
    enOperand (mkWord op pos en rsv data) = decide (en = 1#1) := by
  simp [enOperand]

@[simp] theorem requireZero_ok {z : Bool} {i j : Instr} : requireZero z i = .ok j ↔ z = true ∧ i = j := by
  cases z <;> simp [requireZero]

/-! ## The fields as numbers -/

theorem opField_toNat (w : CmdWord) : (opField w).toNat = w.toNat / 2 ^ 28 := by
  have := w.isLt
  simp [opField, BitVec.extractLsb'_toNat, Nat.shiftRight_eq_div_pow]
  omega

theorem posField_toNat (w : CmdWord) : (posField w).toNat = w.toNat / 2 ^ 26 % 2 ^ 2 := by
  simp [posField, BitVec.extractLsb'_toNat, Nat.shiftRight_eq_div_pow]

theorem enField_toNat (w : CmdWord) : (enField w).toNat = w.toNat / 2 ^ 25 % 2 := by
  simp [enField, BitVec.extractLsb'_toNat, Nat.shiftRight_eq_div_pow]

theorem rsvField_toNat (w : CmdWord) : (rsvField w).toNat = w.toNat / 2 ^ 21 % 2 ^ 4 := by
  simp [rsvField, BitVec.extractLsb'_toNat, Nat.shiftRight_eq_div_pow]

theorem dataField_toNat (w : CmdWord) : (dataField w).toNat = w.toNat % 2 ^ 21 := by
  simp [dataField, BitVec.extractLsb'_toNat]

theorem dataHighField_toNat (w : CmdWord) : (dataHighField w).toNat = w.toNat % 2 ^ 21 / 2 ^ 16 := by
  simp [dataHighField, BitVec.extractLsb'_toNat, Nat.shiftRight_eq_div_pow]
  omega

end Sys2Proof
end

