-- ==== Sys2Proof/Laws/PerInstr.lean ====
section
/-! SUPPORT. Facts about every command as syntax, one lemma per constructor. Family LegalEncoding: the word the encoder gives a
command is legal by the "must be zero" table of R62 and R63, which the encoder does not use. -/

namespace Sys2Proof

/-- A word of five fields is legal when its row of R62 allows them: `legalWord` read field by field. -/
theorem legalWord_mkWord (op : BitVec 4) (pos : BitVec 2) (en : BitVec 1) (rsv : BitVec 4) (data : BitVec 21) :
    legalWord (mkWord op pos en rsv data) =
      match usedFields op.toNat with
      | none => false
      | some u => decide (rsv.toNat = 0) && (u.pos || decide (pos.toNat = 0)) && (u.en || decide (en.toNat = 0))
          && decide (data.toNat < 2 ^ u.dataBits) := by
  have hop := opField_toNat (mkWord op pos en rsv data)
  have hpos := posField_toNat (mkWord op pos en rsv data)
  have hen := enField_toNat (mkWord op pos en rsv data)
  have hrsv := rsvField_toNat (mkWord op pos en rsv data)
  have hdata := dataField_toNat (mkWord op pos en rsv data)
  rw [opField_mkWord] at hop
  rw [posField_mkWord] at hpos
  rw [enField_mkWord] at hen
  rw [rsvField_mkWord] at hrsv
  rw [dataField_mkWord] at hdata
  unfold legalWord
  rw [← hop]
  cases usedFields op.toNat with
  | none => rfl
  | some u => simp only [← hpos, ← hen, ← hrsv, ← hdata]

namespace Laws.LegalEncoding

/-- The encoder's word of `i` is legal. -/
def Statement (i : Instr) : Prop := legalWord (encode i) = true

theorem lookup (c : CodePoint) : Statement (.lookup c) := by
  simp [Statement, encode, legalWord_mkWord, usedFields, c.isLt]

theorem chkLookup (c : CodePoint) : Statement (.chkLookup c) := by
  simp [Statement, encode, legalWord_mkWord, usedFields, c.isLt]

theorem addrOf (p : Position) : Statement (.addrOf p) := by
  simp [Statement, encode, legalWord_mkWord, usedFields]

theorem setMask (p : Position) (m : Mask) : Statement (.setMask p m) := by
  have := m.isLt
  simp [Statement, encode, legalWord_mkWord, usedFields]
  omega

theorem setChar (p : Position) (c : CodePoint) : Statement (.setChar p c) := by
  simp [Statement, encode, legalWord_mkWord, usedFields, c.isLt]

theorem setDot (p : Position) (en : Bool) : Statement (.setDot p en) := by
  simp [Statement, encode, legalWord_mkWord, usedFields]

theorem toggleDot (p : Position) : Statement (.toggleDot p) := by
  simp [Statement, encode, legalWord_mkWord, usedFields]

theorem clear : Statement .clear := by
  simp [Statement, encode, legalWord_mkWord, usedFields]

theorem txtStart : Statement .txtStart := by
  simp [Statement, encode, legalWord_mkWord, usedFields]

theorem txtChar (c : CodePoint) : Statement (.txtChar c) := by
  simp [Statement, encode, legalWord_mkWord, usedFields, c.isLt]

theorem rawBytes : Statement .rawBytes := by
  simp [Statement, encode, legalWord_mkWord, usedFields]

theorem flush : Statement .flush := by
  simp [Statement, encode, legalWord_mkWord, usedFields]

theorem posCheck (n : PosInt) : Statement (.posCheck n) := by
  simp [Statement, encode, legalWord_mkWord, usedFields, n.isLt]

end Laws.LegalEncoding

end Sys2Proof
end

