-- ==== Sys2Proof/Machine/Pseudo.lean ====
section
/-! DEFINITION. The pseudo-commands and the assembly text of spec/30_encoding.md R69: each pseudo-command is the list of commands
it expands to. Its response is the response of the last of them. -/

namespace Sys2Proof.Machine

/-- `set_text "s"`: TXT_START, then one TXT_CHAR per code point, those beyond N too (R69, R101). -/
def setTextCommands (cs : List CodePoint) : List Instr := .txtStart :: cs.map .txtChar

/-- `encode "s"`: `clear` then `set_text "s"` (R69, D22). -/
def encodeTextCommands (cs : List CodePoint) : List Instr := .clear :: setTextCommands cs

/-- `set_char_flush p, c`: `set_char p, c` then `flush` (R69). -/
def setCharFlushCommands (p : Position) (c : CodePoint) : List Instr := [.setChar p c, .flush]

/-- `set_text_flush "s"`: `set_text "s"` then `flush` (R69). -/
def setTextFlushCommands (cs : List CodePoint) : List Instr := setTextCommands cs ++ [.flush]

/-- A number operand in assembly text: decimal is one of the number forms R69 leaves free (notes/assumptions/9.md). -/
def asmNumber (n : Nat) : String := toString n

/-- One command in assembly text: the mnemonic in lower case, operands separated by commas (R69). -/
def asmText : Instr → String
  | .lookup c => "lookup " ++ asmNumber c.toNat
  | .chkLookup c => "chk_lookup " ++ asmNumber c.toNat
  | .addrOf p => "addr_of " ++ asmNumber p.val
  | .setMask p m => "set_mask " ++ asmNumber p.val ++ ", " ++ asmNumber m.toNat
  | .setChar p c => "set_char " ++ asmNumber p.val ++ ", " ++ asmNumber c.toNat
  | .setDot p en => "set_dot " ++ asmNumber p.val ++ ", " ++ asmNumber en.toNat
  | .toggleDot p => "toggle_dot " ++ asmNumber p.val
  | .clear => "clear"
  | .txtStart => "txt_start"
  | .txtChar c => "txt_char " ++ asmNumber c.toNat
  | .rawBytes => "raw_bytes"
  | .flush => "flush"
  | .posCheck n => "pos_check " ++ asmNumber n.toNat

end Sys2Proof.Machine
end

