-- ==== Sys2Proof/Safety.lean ====
section
/-! DEFINITION. The terms the claims use: the invariants of spec/10_state.md R27 and of spec/40_glyph_rom.md R85, what it means that
a command wrote no state of the block, a run of presented commands, and the text layout that R111 describes without the state
machine. -/

namespace Sys2Proof.Machine

/-- R27 (a) to (d). (`N` = 4; (d) `FST ≠ 3` is said of the encoding of R26.) -/
abbrev TextInv (s : State) : Prop :=
  s.cur.toNat ≤ 4
    ∧ (s.fst = .char → 1 ≤ s.cur.toNat ∧ s.cur.toNat ≤ 4)
    ∧ (s.fst = .fold → 1 ≤ s.cur.toNat ∧ s.cur.toNat ≤ 3)
    ∧ fstCode s.fst ≠ 3#2

/-- R85 (c), (d), (e), for the `DOT_MASK` given: '8' (index 24) and every other glyph but '.' (index 14) has the dot bit clear, and
`ROM('.')` is `DOT_MASK`. Conditions (a) and (b) are the type of `State.rom` and the fact that no step writes it. -/
abbrev RomOk (dot : Mask) (rom : Vector Mask 95) : Prop :=
  rom[24] &&& dot = 0#16
    ∧ (∀ k : Fin 95, k.val ≠ 14 → rom[k.val] &&& dot = 0#16)
    ∧ rom[14] = dot

/-- Nothing of the block's own state (R20) differs: no state was written. -/
abbrev SameBlock (s t : State) : Prop :=
  t.db = s.db ∧ t.cur = s.cur ∧ t.fst = s.fst ∧ t.rom = s.rom

/-- The configuration, the inputs and the device side are as they were: the frame of every command but FLUSH, outside the block's
state and the response port. -/
abbrev SameOutside (s t : State) : Prop :=
  t.params = s.params ∧ t.host = s.host ∧ t.devAnswers = s.devAnswers ∧ t.devCalls = s.devCalls ∧ t.devOut = s.devOut

/-- The commands `is` are presented next, as their words, before what the host presents now. -/
def present (is : List Instr) (s : State) : State :=
  { s with host := is.map (fun i => .command (encode i)) ++ s.host }

/-- The machine runs the commands `is`, one step each. -/
def runCommands (is : List Instr) (s : State) : Host.Outcome State Fault Refusal :=
  Host.Core.run Sys2Proof.core is.length (present is s)

/-- What the positions a text fills hold in the end, said without `CUR` and `FST` (R111 (d), (e), with truncation R105).
The number is how many positions are left. A dot that does not follow a non-dot takes a position. A non-dot in the
last position keeps no dot. Elsewhere a non-dot followed by exactly one dot has the dot bit, and one followed by two dots or
more has not, the first two dots making one standalone dot between them. -/
def textLayout (dot : Mask) (rom : Vector Mask 95) : Nat → List CodePoint → List Mask
  | 0, _ => []
  | _ + 1, [] => []
  | 1, c :: _ => if c = Config.dotChar then [dot] else [glyph rom c]
  | n + 2, c :: cs =>
    if c = Config.dotChar then dot :: textLayout dot rom (n + 1) cs
    else
      match cs with
      | [] => [glyph rom c]
      | d :: ds =>
        if d = Config.dotChar then
          match ds with
          | [] => [glyph rom c ||| dot]
          | e :: es =>
            if e = Config.dotChar then glyph rom c :: dot :: textLayout dot rom n es
            else (glyph rom c ||| dot) :: textLayout dot rom (n + 1) ds
        else glyph rom c :: textLayout dot rom (n + 1) cs

/-- How many positions a text would take on a display without an end (R111 (d)): each non-dot one, and each dot one but the
first dot of a run that follows a non-dot. The first argument says whether the character before was a non-dot. -/
def positionsTaken : Bool → List CodePoint → Nat
  | _, [] => 0
  | afterGlyph, c :: cs =>
    if c = Config.dotChar then (if afterGlyph then 0 else 1) + positionsTaken false cs
    else 1 + positionsTaken true cs

end Sys2Proof.Machine
end

