-- ==== Sys2Proof/Certificates/Slice0/Obligations.lean ====
section
/-! DEFINITION. The statements for the provers. Each cites the rules of spec/ it formalises. A state named in a statement is any
state, also one no run reaches, unless a premise says otherwise; each premise has its witness in Sys2Proof/Tests/Slice0.lean. -/

open Sys2Proof Sys2Proof.Machine

/-! ## Encoding -/

/-- The decoder reads every command back from its word, with every operand at every value (R61, R62, R66). -/
def Obligations.DecodeEncodeRoundTrip : Prop :=
  ∀ i : Instr, decode (encode i) = .ok i

/-- A word the decoder reads is the only word of its command: no bit of it is ignored (R61, R62, R63). -/
def Obligations.DecodedWordIsItsEncoding : Prop :=
  ∀ (w : CmdWord) (i : Instr), decode w = .ok i → encode i = w

/-- The decoder accepts exactly the words that R62's "must be zero" column and R63 make legal. -/
def Obligations.DecodeAcceptsExactlyLegalWords : Prop :=
  ∀ w : CmdWord, legalWord w = true ↔ ∃ i, decode w = .ok i

/-- R63: an illegal word writes no state of the block, makes no device call and answers `ILLEGAL` with RDATA 0; the word is used
up, and nothing else changes. (The illegal words are those of `legalWord`: R63 (a), (b), (c) with R62's column.) -/
def Obligations.IllegalWordAnswersIllegal : Prop :=
  ∀ (s : State) (w : CmdWord) (rest : List HostInput), s.host = .command w :: rest → legalWord w = false →
    step s = .next { s with host := rest, resp := some ⟨.illegal, 0#64⟩, devOut := none }

/-- Words written out from the spec's encodings, one per command (R62 and the examples of spec/40 to 43). -/
def Obligations.WrittenOutWordsDecode : Prop :=
  decode 0x10000038 = .ok (.lookup 0x38) ∧ decode 0x2000000A = .ok (.chkLookup 0x0A)
    ∧ decode 0x38000000 = .ok (.addrOf 2) ∧ decode 0x440040FF = .ok (.setMask 1 0x40FF)
    ∧ decode 0x50000041 = .ok (.setChar 0 0x41) ∧ decode 0x6A000000 = .ok (.setDot 2 true)
    ∧ decode 0x7C000000 = .ok (.toggleDot 3) ∧ decode 0x80000000 = .ok .clear
    ∧ decode 0x90000000 = .ok .txtStart ∧ decode 0xA000002E = .ok (.txtChar 0x2E#21)
    ∧ decode 0xB0000000 = .ok .rawBytes ∧ decode 0xC0000000 = .ok .flush
    ∧ decode 0xD0000004 = .ok (.posCheck 4)

/-! ## The step, the reset and the invariants -/

/-- A step whose presented word decodes is the execution of that command, after the word is taken from the stream and with both
output ports undriven (R10, R50, R51, R64). -/
def Obligations.StepRunsTheDecodedCommand : Prop :=
  ∀ (s : State) (w : CmdWord) (rest : List HostInput) (i : Instr), s.host = .command w :: rest → decode w = .ok i →
    step s = exec i { s with host := rest, resp := none, devOut := none }

/-- The reset event (R32, R190): `DB` 0, `CUR` 0, `FST` NONE, the ROM as it was; no device call and no response. That it is an
input of the host's stream is the model's choice, notes/assumptions/2.md. -/
def Obligations.ResetEventRestoresResetValues : Prop :=
  ∀ (s : State) (rest : List HostInput), s.host = .reset :: rest →
    ∃ t, step s = .next t ∧ (∀ p : Position, readMask t p = 0#16) ∧ t.cur = 0#3 ∧ t.fst = .none ∧ t.rom = s.rom ∧ t.params = s.params
      ∧ t.host = rest ∧ t.devAnswers = s.devAnswers ∧ t.devCalls = s.devCalls ∧ t.resp = none ∧ t.devOut = none

/-- With nothing presented the block idles: its state stays, and no port is driven. The model's choice,
notes/assumptions/2.md. -/
def Obligations.NothingPresentedWritesNothing : Prop :=
  ∀ s : State, s.host = [] → step s = .next { s with resp := none, devOut := none }

/-- R32: the reset values of all state, and that the ROM keeps its contents over a reset. -/
def Obligations.ResetStateValues : Prop :=
  (∀ p : Position, readMask State.reset p = 0#16) ∧ State.reset.cur = 0#3 ∧ State.reset.fst = .none
    ∧ ∀ s : State, (resetBlock s).rom = s.rom

/-- The invariants of R27 hold right after reset. -/
def Obligations.TextInvariantHoldsAtReset : Prop :=
  TextInv State.reset

/-- The invariants of R27 are kept by every step: every command, legal or not, the reset event, and an idle step. -/
def Obligations.EveryStepKeepsTextInvariant : Prop :=
  ∀ s t : State, TextInv s → step s = .next t → TextInv t

/-- No step writes the ROM or the configuration (R28; R7). -/
def Obligations.EveryStepKeepsRomAndConfiguration : Prop :=
  ∀ s t : State, step s = .next t → t.rom = s.rom ∧ t.params = s.params

/-- `CUR` changes only by a reset (to 0), a TXT_START (to 0) or a TXT_CHAR (by 1, without wrapping) (R25, R143). -/
def Obligations.OnlyTextCommandsAndResetMoveCursor : Prop :=
  ∀ s t : State, step s = .next t → t.cur ≠ s.cur →
    ∃ rest, (s.host = .reset :: rest ∧ t.cur = 0#3)
      ∨ ∃ w, s.host = .command w :: rest ∧
        ((decode w = .ok .txtStart ∧ t.cur = 0#3) ∨ ∃ c, decode w = .ok (.txtChar c) ∧ t.cur.toNat = s.cur.toNat + 1)

/-- A command that changes the buffer is SET_MASK, SET_CHAR, SET_DOT, TOGGLE_DOT, CLEAR or TXT_CHAR (R22). -/
def Obligations.OnlyWritersChangeBuffer : Prop :=
  ∀ (i : Instr) (s t : State), exec i s = .next t → t.db ≠ s.db →
    (∃ p m, i = .setMask p m) ∨ (∃ p c, i = .setChar p c) ∨ (∃ p en, i = .setDot p en) ∨ (∃ p, i = .toggleDot p)
      ∨ i = .clear ∨ ∃ c, i = .txtChar c

/-- No command but TXT_CHAR reads `CUR` or `FST`: run from two states that differ in them alone, it makes the same buffer, the same
response and the same device call (R33, R142). For a FLUSH with no answer written down, that the second run completes and answers
the same holds by the model's choice alone: the free value depends on `devCalls` only, which notes/assumptions/3.md marks unsafe
for a comparison of two runs and the spec does not promise. -/
def Obligations.OnlyTxtCharReadsCursorAndFoldState : Prop :=
  ∀ (i : Instr) (s t : State) (c : BitVec 3) (f : FoldState), (∀ ch, i ≠ .txtChar ch) → exec i s = .next t →
    ∃ u, exec i { s with cur := c, fst := f } = .next u ∧ u.db = t.db ∧ u.resp = t.resp ∧ u.devOut = t.devOut
      ∧ u.devCalls = t.devCalls ∧ u.devAnswers = t.devAnswers

/-- The response and the device call of the last step are outputs, not state: no step reads them (R31, R64). -/
def Obligations.OutputPortsAreNotRead : Prop :=
  ∀ (s : State) (r : Option Response) (d : Option DevWrite), step { s with resp := r, devOut := d } = step s

/-! ## The Glyph ROM -/

/-- The default ROM table meets R85 (c), (d), (e) under the default `DOT_MASK`; reset has both. Its words are the spec's own instantiation, notes/assumptions/5.md. -/
def Obligations.GlyphRomTableIsWellFormed : Prop :=
  RomOk Config.params.dotMask glyphRom ∧ State.reset.rom = glyphRom ∧ State.reset.params = Config.params

/-- R86: LOOKUP, its encoding and its effect. Index k of the ROM holds code point 0x20 + k, so 31 is '?'. -/
def Obligations.LookupAnswersGlyph : Prop :=
  (∀ c : CodePoint, decode (0x1#4 ++ 0#2 ++ 0#1 ++ 0#4 ++ c) = .ok (.lookup c))
    ∧ ∀ (c : CodePoint) (s : State),
      (∀ k : Fin 95, c.toNat = 0x20 + k.val →
        exec (.lookup c) s = .next { s with resp := some ⟨.ok, (s.rom[k.val]).setWidth 64⟩ })
      ∧ (c.toNat < 0x20 ∨ 0x7E < c.toNat →
        exec (.lookup c) s = .next { s with resp := some ⟨.ok, (s.rom[31]).setWidth 64⟩ })

/-- R87: CHK_LOOKUP, its encoding and its effect; `NO_MAPPING` carries the whole code point. -/
def Obligations.ChkLookupAnswersGlyphOrNoMapping : Prop :=
  (∀ c : CodePoint, decode (0x2#4 ++ 0#2 ++ 0#1 ++ 0#4 ++ c) = .ok (.chkLookup c))
    ∧ ∀ (c : CodePoint) (s : State),
      (∀ k : Fin 95, c.toNat = 0x20 + k.val →
        exec (.chkLookup c) s = .next { s with resp := some ⟨.ok, (s.rom[k.val]).setWidth 64⟩ })
      ∧ (c.toNat < 0x20 ∨ 0x7E < c.toNat →
        exec (.chkLookup c) s = .next { s with resp := some ⟨.noMapping, c.setWidth 64⟩ })

/-- The laws of the two lookups the spec derives in R88 (a), (b), (c): a mapped character never fails the strict lookup, every
unmapped one looks up like '?', and where the strict lookup answers `OK` the two commands do the same. -/
def Obligations.LookupLaws : Prop :=
  ∀ (c : CodePoint) (s : State),
    (Mapped c → ∃ d, exec (.chkLookup c) s = .next { s with resp := some ⟨.ok, d⟩ })
    ∧ (¬ Mapped c → exec (.lookup c) s = exec (.lookup Config.unknownChar) s)
    ∧ (∀ t d, exec (.chkLookup c) s = .next t → t.resp = some ⟨.ok, d⟩ → exec (.lookup c) s = .next t)

/-! ## The display buffer -/

/-- R133: ADDR_OF, its encoding and its effect, and that no two positions share a byte. -/
def Obligations.AddrOfAnswersBytePair : Prop :=
  (∀ p : Position, decode (0x3#4 ++ BitVec.ofNat 2 p.val ++ 0#1 ++ 0#4 ++ 0#21) = .ok (.addrOf p))
    ∧ (∀ (p : Position) (s : State),
        exec (.addrOf p) s = .next { s with resp := some ⟨.ok, BitVec.ofNat 64 (2 * p.val + 256 * (2 * p.val + 1))⟩ })
    ∧ ∀ p q : Position, p < q → (addrLow p).val < (addrHigh p).val ∧ (addrHigh p).val < (addrLow q).val

/-- R134: SET_MASK, its encoding and its effect. -/
def Obligations.SetMaskWritesMask : Prop :=
  (∀ (p : Position) (m : Mask),
      decode (0x4#4 ++ BitVec.ofNat 2 p.val ++ 0#1 ++ 0#4 ++ (0#5 ++ m)) = .ok (.setMask p m))
    ∧ ∀ (p : Position) (m : Mask) (s : State),
      exec (.setMask p m) s = .next { s with db := s.db.set p.val m, resp := some ⟨.ok, 0#64⟩ }

/-- R135: SET_CHAR, its encoding and its effect: the glyph, or the glyph of '?', replaces the whole mask, also for '.'. -/
def Obligations.SetCharWritesGlyph : Prop :=
  (∀ (p : Position) (c : CodePoint),
      decode (0x5#4 ++ BitVec.ofNat 2 p.val ++ 0#1 ++ 0#4 ++ c) = .ok (.setChar p c))
    ∧ ∀ (p : Position) (c : CodePoint) (s : State),
      (∀ k : Fin 95, c.toNat = 0x20 + k.val →
        exec (.setChar p c) s = .next { s with db := s.db.set p.val s.rom[k.val], resp := some ⟨.ok, 0#64⟩ })
      ∧ (c.toNat < 0x20 ∨ 0x7E < c.toNat →
        exec (.setChar p c) s = .next { s with db := s.db.set p.val s.rom[31], resp := some ⟨.ok, 0#64⟩ })

/-- R136: SET_DOT, its encoding and its effect for both values of en, whatever `DOT_MASK` is; the one of R6 is bit 14. -/
def Obligations.SetDotWritesDotBit : Prop :=
  (∀ (p : Position) (en : Bool),
      decode (0x6#4 ++ BitVec.ofNat 2 p.val ++ BitVec.ofBool en ++ 0#4 ++ 0#21) = .ok (.setDot p en))
    ∧ Config.params.dotMask = BitVec.twoPow 16 14
    ∧ ∀ (p : Position) (s : State),
      exec (.setDot p true) s
          = .next { s with db := s.db.set p.val (s.db[p.val] ||| s.params.dotMask), resp := some ⟨.ok, 0#64⟩ }
      ∧ exec (.setDot p false) s
          = .next { s with db := s.db.set p.val (s.db[p.val] &&& ~~~s.params.dotMask), resp := some ⟨.ok, 0#64⟩ }

/-- R137: TOGGLE_DOT, its encoding and its effect, and that two of them restore the position. -/
def Obligations.ToggleDotFlipsDotBit : Prop :=
  (∀ p : Position, decode (0x7#4 ++ BitVec.ofNat 2 p.val ++ 0#1 ++ 0#4 ++ 0#21) = .ok (.toggleDot p))
    ∧ (∀ (p : Position) (s : State),
        exec (.toggleDot p) s
          = .next { s with db := s.db.set p.val (s.db[p.val] ^^^ s.params.dotMask), resp := some ⟨.ok, 0#64⟩ })
    ∧ ∀ (p : Position) (s t u : State),
        exec (.toggleDot p) s = .next t → exec (.toggleDot p) t = .next u → u.db = s.db

/-- R138: CLEAR, its encoding and its effect. -/
def Obligations.ClearZeroesBuffer : Prop :=
  decode 0x80000000 = .ok .clear
    ∧ ∀ s : State, ∃ t, exec .clear s = .next t ∧ (∀ p : Position, readMask t p = 0#16) ∧ t.cur = s.cur ∧ t.fst = s.fst
      ∧ t.rom = s.rom ∧ SameOutside s t ∧ t.resp = some ⟨.ok, 0#64⟩

/-- R139: RAW_BYTES, its encoding and its effect, as the four masks and as the eight bytes in wire order. -/
def Obligations.RawBytesAnswersWireOrder : Prop :=
  decode 0xB0000000 = .ok .rawBytes
    ∧ ∀ s : State, ∃ d : RData, exec .rawBytes s = .next { s with resp := some ⟨.ok, d⟩ }
      ∧ d = s.db[3] ++ s.db[2] ++ s.db[1] ++ s.db[0]
      ∧ ∀ k : ByteAddr, d.extractLsb' (8 * k.val) 8 = memRead s k

/-- R140: POS_CHECK, its encoding and its effect. -/
def Obligations.PosCheckAnswersPositionOrInvalid : Prop :=
  (∀ n : PosInt, decode (0xD#4 ++ 0#2 ++ 0#1 ++ 0#4 ++ n) = .ok (.posCheck n))
    ∧ ∀ (n : PosInt) (s : State),
      (n.toNat < 4 → exec (.posCheck n) s = .next { s with resp := some ⟨.ok, n.setWidth 64⟩ })
      ∧ (4 ≤ n.toNat → exec (.posCheck n) s = .next { s with resp := some ⟨.invalidPosition, n.setWidth 64⟩ })

/-- R40: the byte view of the buffer. A byte reads as the low byte of its digit's mask at an even address and as the high byte at
an odd one; a byte write is read back, changes no other byte, and touches nothing but the buffer. -/
def Obligations.ByteSpaceIsTheBuffer : Prop :=
  ∀ (s : State) (k : ByteAddr),
    memRead s k = (if k.val % 2 = 0 then s.db[k.val / 2].extractLsb' 0 8 else s.db[k.val / 2].extractLsb' 8 8)
    ∧ ∀ v : Byte, (∀ j : ByteAddr, memRead (memWrite k v s) j = if j = k then v else memRead s j)
      ∧ ∃ db, memWrite k v s = { s with db := db }

/-- R132: writing a mask is writing its low byte at 2p and its high byte at 2p+1. -/
def Obligations.MaskWriteIsTwoByteWrites : Prop :=
  ∀ (p : Position) (m : Mask) (s : State),
    writeMask p m s
      = memWrite ⟨2 * p.val + 1, by omega⟩ (m.extractLsb' 8 8) (memWrite ⟨2 * p.val, by omega⟩ (m.extractLsb' 0 8) s)

/-- The frame of the commands that write one digit, SET_MASK, SET_CHAR, SET_DOT and TOGGLE_DOT: every byte outside the pair
(2p, 2p+1) reads as before, for SET_DOT and TOGGLE_DOT also the byte of the pair in which `DOT_MASK` has no bit (the low byte
under R6's `DOT_MASK`), and nothing but the buffer and the response changes (R46, R134 to R137, R142). -/
def Obligations.DigitWritesChangeOneDigit : Prop :=
  ∀ (p : Position) (i : Instr) (s t : State),
    ((∃ m, i = .setMask p m) ∨ (∃ c, i = .setChar p c) ∨ (∃ en, i = .setDot p en) ∨ i = .toggleDot p) →
    exec i s = .next t →
    (∀ k : ByteAddr, k ≠ addrLow p → k ≠ addrHigh p → memRead t k = memRead s k)
      ∧ (((∃ en, i = .setDot p en) ∨ i = .toggleDot p) →
          (lowByte s.params.dotMask = 0#8 → memRead t (addrLow p) = memRead s (addrLow p))
            ∧ (highByte s.params.dotMask = 0#8 → memRead t (addrHigh p) = memRead s (addrHigh p)))
      ∧ t.cur = s.cur ∧ t.fst = s.fst ∧ t.rom = s.rom ∧ SameOutside s t

/-- The commands that write nothing, which may stand between the characters of a text (R195): LOOKUP, CHK_LOOKUP, ADDR_OF,
RAW_BYTES, POS_CHECK and FLUSH leave all of the block's state and every byte; all but FLUSH leave the device side too. -/
def Obligations.ReadingCommandsWriteNothing : Prop :=
  ∀ (i : Instr) (s t : State),
    ((∃ c, i = .lookup c) ∨ (∃ c, i = .chkLookup c) ∨ (∃ p, i = .addrOf p) ∨ i = .rawBytes ∨ (∃ n, i = .posCheck n)
      ∨ i = .flush) →
    exec i s = .next t →
    SameBlock s t ∧ (∀ k : ByteAddr, memRead t k = memRead s k) ∧ t.params = s.params ∧ t.host = s.host
      ∧ (i ≠ .flush → SameOutside s t)

/-- The law the spec derives in R141: SET_DOT and TOGGLE_DOT keep every non-dot bit of their position and every other position, and
leave the dot bit as they say. -/
def Obligations.DotCommandsKeepNonDotBits : Prop :=
  ∀ (p : Position) (s t : State),
    (∀ en, exec (.setDot p en) s = .next t →
      readMask t p &&& ~~~s.params.dotMask = readMask s p &&& ~~~s.params.dotMask
        ∧ readMask t p &&& s.params.dotMask = (if en then s.params.dotMask else 0#16)
        ∧ ∀ q, q ≠ p → readMask t q = readMask s q)
    ∧ (exec (.toggleDot p) s = .next t →
      readMask t p &&& ~~~s.params.dotMask = readMask s p &&& ~~~s.params.dotMask
        ∧ readMask t p &&& s.params.dotMask = (readMask s p &&& s.params.dotMask) ^^^ s.params.dotMask
        ∧ ∀ q, q ≠ p → readMask t q = readMask s q)

/-- Every bit of every position is readable and writable (R24): what SET_MASK writes, RAW_BYTES reads back at `[16p+15:16p]`. -/
def Obligations.SetMaskReadsBackInRawBytes : Prop :=
  ∀ (p : Position) (m : Mask) (s t : State), exec (.setMask p m) s = .next t →
    ∃ u r, exec .rawBytes t = .next u ∧ u.resp = some r ∧ r.rdata.extractLsb' (16 * p.val) 16 = m

/-! ## The dot-folding state machine -/

/-- R103: TXT_START, its encoding and its effect; the buffer is not cleared. -/
def Obligations.TxtStartResetsEncoder : Prop :=
  decode 0x90000000 = .ok .txtStart
    ∧ ∀ s : State, exec .txtStart s = .next { s with cur := 0#3, fst := .none, resp := some ⟨.ok, 0#64⟩ }

/-- R105: with `CUR = N` every character is discarded and answers `OK`; a dot does not fold onto `DB[N-1]`. -/
def Obligations.TxtCharDiscardsWhenFull : Prop :=
  ∀ (c : CodePoint) (s : State), s.cur = 4#3 → exec (.txtChar c) s = .next { s with resp := some ⟨.ok, 0#64⟩ }

/-- R106: a dot with `FST = NONE` and `CUR = p < N` is written as the standalone dot glyph at p, and `CUR` advances. -/
def Obligations.TxtCharWritesStandaloneDot : Prop :=
  ∀ (p : Position) (s : State), s.cur.toNat = p.val → s.fst = .none →
    exec (.txtChar 0x2E#21) s = .next { s with
      db := s.db.set p.val s.params.dotMask, cur := BitVec.ofNat 3 (p.val + 1), fst := .none, resp := some ⟨.ok, 0#64⟩ }

/-- R107: a dot with `FST = CHAR` and `CUR = q + 1 < N` is OR-ed into position q; `CUR` does not advance. -/
def Obligations.TxtCharFoldsDot : Prop :=
  ∀ (q : Position) (s : State), q.val < 3 → s.cur.toNat = q.val + 1 → s.fst = .char →
    exec (.txtChar 0x2E#21) s = .next { s with
      db := s.db.set q.val (s.db[q.val] ||| s.params.dotMask), fst := .fold, resp := some ⟨.ok, 0#64⟩ }

/-- R108: a dot with `FST = FOLD` and `CUR = p = q + 1 < N` clears the dot of position q, is written as the standalone dot glyph
at p, and `CUR` advances. -/
def Obligations.TxtCharEscapesSecondDot : Prop :=
  ∀ (q p : Position) (s : State), p.val = q.val + 1 → s.cur.toNat = p.val → s.fst = .fold →
    exec (.txtChar 0x2E#21) s = .next { s with
      db := (s.db.set q.val (s.db[q.val] &&& ~~~s.params.dotMask)).set p.val s.params.dotMask
      cur := BitVec.ofNat 3 (p.val + 1), fst := .none, resp := some ⟨.ok, 0#64⟩ }

/-- R109: any other character with `CUR = p < N` replaces the whole mask at p by its glyph, an unmapped one by the glyph of '?',
whatever `FST` is, and `CUR` advances. -/
def Obligations.TxtCharWritesGlyph : Prop :=
  ∀ (c : CodePoint) (p : Position) (s : State), c ≠ 0x2E#21 → s.cur.toNat = p.val →
    (∀ k : Fin 95, c.toNat = 0x20 + k.val →
      exec (.txtChar c) s = .next { s with
        db := s.db.set p.val s.rom[k.val], cur := BitVec.ofNat 3 (p.val + 1), fst := .char, resp := some ⟨.ok, 0#64⟩ })
    ∧ (c.toNat < 0x20 ∨ 0x7E < c.toNat →
      exec (.txtChar c) s = .next { s with
        db := s.db.set p.val s.rom[31], cur := BitVec.ofNat 3 (p.val + 1), fst := .char, resp := some ⟨.ok, 0#64⟩ })

/-- TXT_CHAR, its encoding, and that in every state that meets R27 it completes, answers `OK`, keeps R27 and the ROM, and touches no
port but the response; it changes no position but `CUR` and `CUR - 1` (R104). -/
def Obligations.TxtCharAlwaysCompletes : Prop :=
  (∀ c : CodePoint, decode (0xA#4 ++ 0#2 ++ 0#1 ++ 0#4 ++ c) = .ok (.txtChar c))
    ∧ ∀ (c : CodePoint) (s : State), TextInv s →
      ∃ t, exec (.txtChar c) s = .next t ∧ t.resp = some ⟨.ok, 0#64⟩ ∧ TextInv t ∧ t.rom = s.rom ∧ SameOutside s t
        ∧ ∀ q : Position, q.val ≠ s.cur.toNat → q.val + 1 ≠ s.cur.toNat → readMask t q = readMask s q

/-- From a state that meets R27 the only stop is a FLUSH whose device never answers (R165, R170, R197). Two clauses are the
model's choice: that the stop is the fault `deviceSilent` (notes/assumptions/4.md), and where silence is written (the next
answer of the list, or the free value where the list is empty: notes/assumptions/3.md). -/
def Obligations.OnlyASilentDeviceStopsTheBlock : Prop :=
  ∀ (s : State) (f : Fault), TextInv s → step s = .fault f →
    f = .deviceSilent
      ∧ ((∃ rest, s.devAnswers = none :: rest) ∨ (s.devAnswers = [] ∧ Config.deviceReply s.devCalls = none))
      ∧ ∃ w rest, s.host = .command w :: rest ∧ decode w = .ok .flush

/-- No step is refused: every command word has an effect (R62, R63, R177). -/
def Obligations.NoStepIsRefused : Prop :=
  ∀ (s : State) (r : Refusal), step s ≠ .refused r

/-! ## A whole text -/

/-- The state machine, run on the words of `set_text`, fills the buffer as the batch description of a text says: `textLayout` is
written without `CUR` and `FST`. Positions the text does not reach keep their masks. The ROM is any that meets R85 (with another
one the escape of R108 would clear a glyph's own dot bit). Every text completes, from every state (R100, R101, R110 and the
laws the spec derives in R111 (a), (d), (e)). -/
def Obligations.SetTextMatchesLayout : Prop :=
  ∀ (cs : List CodePoint) (s : State), RomOk s.params.dotMask s.rom →
    ∃ t, runCommands (setTextCommands cs) s = .next t
      ∧ (∀ p : Position, readMask t p = (textLayout s.params.dotMask s.rom 4 cs).getD p.val (readMask s p))
      ∧ t.cur.toNat = (textLayout s.params.dotMask s.rom 4 cs).length ∧ t.rom = s.rom ∧ t.params = s.params ∧ t.resp = some ⟨.ok, 0#64⟩ ∧ TextInv t
      ∧ t.host = s.host ∧ t.devCalls = s.devCalls

/-- `encode "s"` shows the text alone: positions it does not reach are 0 (R69, R194). The ROM is any that meets R85. -/
def Obligations.EncodeTextShowsTextAlone : Prop :=
  ∀ (cs : List CodePoint) (s : State), RomOk s.params.dotMask s.rom →
    ∃ t, runCommands (encodeTextCommands cs) s = .next t
      ∧ ∀ p : Position, readMask t p = (textLayout s.params.dotMask s.rom 4 cs).getD p.val 0#16

/-- What a text writes does not depend on the buffer before it, nor on `CUR` and `FST`: from two states with one ROM and one
`DOT_MASK` it ends with the same `CUR` and `FST`, and the same masks below `CUR`; the masks from `CUR` on are those each
state had (R111 (a), derived there). -/
def Obligations.TextWritesDoNotDependOnPriorBuffer : Prop :=
  ∀ (cs : List CodePoint) (s s' t t' : State), s.rom = s'.rom → s.params.dotMask = s'.params.dotMask →
    runCommands (setTextCommands cs) s = .next t → runCommands (setTextCommands cs) s' = .next t' →
    t.cur = t'.cur ∧ t.fst = t'.fst
      ∧ (∀ p : Position, p.val < t.cur.toNat → readMask t p = readMask t' p)
      ∧ (∀ p : Position, t.cur.toNat ≤ p.val → readMask t p = readMask s p ∧ readMask t' p = readMask s' p)

/-- Truncation: once a text has filled the buffer, any further characters change nothing (R105, R111 (b)). -/
def Obligations.TextIsTruncatedWhenFull : Prop :=
  ∀ (cs more : List CodePoint) (s t : State), runCommands (setTextCommands cs) s = .next t → t.cur = 4#3 →
    ∃ u, runCommands (setTextCommands (cs ++ more)) s = .next u ∧ u.db = t.db ∧ u.cur = t.cur ∧ u.fst = t.fst

/-- Idempotence: the same text again, without a clear, leaves the buffer, `CUR` and `FST` as they are (R111 (c)). -/
def Obligations.SetTextIsIdempotent : Prop :=
  ∀ (cs : List CodePoint) (s t : State), runCommands (setTextCommands cs) s = .next t →
    ∃ u, runCommands (setTextCommands cs) t = .next u ∧ u.db = t.db ∧ u.cur = t.cur ∧ u.fst = t.fst

/-- A text takes as many positions as its characters and dot runs ask for, up to N (R111 (d)). -/
def Obligations.TextTakesCountedPositions : Prop :=
  ∀ (cs : List CodePoint) (s t : State), runCommands (setTextCommands cs) s = .next t →
    t.cur.toNat = min 4 (positionsTaken false cs)

/-! ## FLUSH and the device -/

/-- R160: FLUSH, its encoding and its effect for each answer of the device: one call with the eight bytes of the buffer at
`BASE_ADDR`, then `OK`, or `TRANSPORT_ERROR` with e unchanged; `DB`, `CUR` and `FST` are unchanged whatever the answer. -/
def Obligations.FlushAnswersTheDevice : Prop :=
  decode 0xC0000000 = .ok .flush
    ∧ ∀ s : State,
      (devAnswer s = some .ok →
        ∃ t, exec .flush s = .next t ∧ t.resp = some ⟨.ok, 0#64⟩ ∧ SameBlock s t
          ∧ t.params = s.params ∧ t.devOut = some ⟨s.params.baseAddr, wireBytes s⟩)
      ∧ (∀ e, devAnswer s = some (.err e) →
        ∃ t, exec .flush s = .next t ∧ t.resp = some ⟨.transportError, e⟩ ∧ SameBlock s t
          ∧ t.params = s.params ∧ t.devOut = some ⟨s.params.baseAddr, wireBytes s⟩)
      ∧ ∀ k : ByteAddr, (wireBytes s)[k.val] = memRead s k

/-- The whole next state of a FLUSH whose answer is written down: the answer is used up, one call is counted, and nothing else
changes. The list of answers is the model's form of the device's input, notes/assumptions/3.md. -/
def Obligations.FlushUsesUpOneAnswer : Prop :=
  ∀ (s : State) (rest : List (Option DevReply)),
    (s.devAnswers = some .ok :: rest →
      exec .flush s = .next { s with
        devAnswers := rest, devCalls := s.devCalls + 1, devOut := some ⟨s.params.baseAddr, wireBytes s⟩,
        resp := some ⟨.ok, 0#64⟩ })
    ∧ ∀ e, s.devAnswers = some (.err e) :: rest →
      exec .flush s = .next { s with
        devAnswers := rest, devCalls := s.devCalls + 1, devOut := some ⟨s.params.baseAddr, wireBytes s⟩,
        resp := some ⟨.transportError, e⟩ }

/-- Where no answer is written down the free value decides: the device answers Ok, answers Err(e), or never answers, and nobody
knows which; the statement holds for every value of `Config.deviceReply` (D15, R165, R199; the model's free value,
notes/assumptions/3.md, and its form of a stuck step, notes/assumptions/4.md). -/
def Obligations.FlushDrawsAFreeAnswer : Prop :=
  ∀ s : State, s.devAnswers = [] →
    (Config.deviceReply s.devCalls = some .ok
      ∧ exec .flush s = .next { s with
        devCalls := s.devCalls + 1, devOut := some ⟨s.params.baseAddr, wireBytes s⟩, resp := some ⟨.ok, 0#64⟩ })
    ∨ (∃ e, Config.deviceReply s.devCalls = some (.err e)
      ∧ exec .flush s = .next { s with
        devCalls := s.devCalls + 1, devOut := some ⟨s.params.baseAddr, wireBytes s⟩, resp := some ⟨.transportError, e⟩ })
    ∨ (Config.deviceReply s.devCalls = none ∧ exec .flush s = .fault .deviceSilent)

/-- FLUSH completes exactly where the device answers; a device that never answers leaves it stuck, with no completing step (R165,
R199), whether its silence is written down or is the free value (notes/assumptions/3.md). The fault is the model's form of a
stuck step (notes/assumptions/4.md). -/
def Obligations.FlushIsStuckOnASilentDevice : Prop :=
  (∀ s : State, devAnswer s = none → exec .flush s = .fault .deviceSilent)
    ∧ (∀ (s : State) (rest : List (Option DevReply)), s.devAnswers = none :: rest → exec .flush s = .fault .deviceSilent)
    ∧ ∀ s t : State, exec .flush s = .next t → ∃ r, devAnswer s = some r

/-- A FLUSH makes exactly one call and is not retried; it leaves the buffer, so a second FLUSH sends the same bytes, whatever the
device answered to the first (R163, R197). -/
def Obligations.FlushRetrySendsSameBytes : Prop :=
  ∀ s t u : State, exec .flush s = .next t → exec .flush t = .next u →
    t.db = s.db ∧ t.devCalls = s.devCalls + 1 ∧ u.devCalls = s.devCalls + 2 ∧ t.devOut ≠ none ∧ u.devOut = t.devOut

/-- FLUSH sends the bytes RAW_BYTES answers (R139, R160), byte k meant for device address `BASE_ADDR + k` (R160, R48). The clause on
addresses is a choice: R160 says "That byte k lands at device address `BASE_ADDR + k` is this spec's reading of "starting at a
known base address"" (D24), and that the address is an unbounded number, which does not wrap, is the model's
(notes/assumptions/10.md, unsafe for claims about device addresses not wrapping). -/
def Obligations.FlushSendsRawBytesFromBase : Prop :=
  ∀ s t u : State, exec .rawBytes s = .next t → exec .flush s = .next u →
    ∃ d r, u.devOut = some d ∧ t.resp = some r ∧ d.base = s.params.baseAddr
      ∧ devCells d = (List.finRange 8).map fun k => (s.params.baseAddr + k.val, r.rdata.extractLsb' (8 * k.val) 8)

/-- A step that calls the device is a legal FLUSH word's, and makes one call; every other step leaves the count (R41, R63, R163). -/
def Obligations.OnlyFlushCallsTheDevice : Prop :=
  ∀ s t : State, step s = .next t →
    (t.devOut = none ∧ t.devCalls = s.devCalls)
      ∨ ∃ w rest, s.host = .command w :: rest ∧ decode w = .ok .flush ∧ t.devCalls = s.devCalls + 1
        ∧ t.devOut = some ⟨s.params.baseAddr, wireBytes s⟩

/-! ## Responses and errors -/

/-- R171: each error status, with the one command that raises it, exactly when, and the value it records. -/
def Obligations.ErrorStatusCauses : Prop :=
  ∀ (s t : State) (d : RData), step s = .next t →
    (t.resp = some ⟨.noMapping, d⟩ ↔
      ∃ w rest c, s.host = .command w :: rest ∧ decode w = .ok (.chkLookup c) ∧ (c.toNat < 0x20 ∨ 0x7E < c.toNat)
        ∧ d = c.setWidth 64)
    ∧ (t.resp = some ⟨.invalidPosition, d⟩ ↔
      ∃ w rest n, s.host = .command w :: rest ∧ decode w = .ok (.posCheck n) ∧ 4 ≤ n.toNat ∧ d = n.setWidth 64)
    ∧ (t.resp = some ⟨.transportError, d⟩ ↔
      ∃ w rest, s.host = .command w :: rest ∧ decode w = .ok .flush ∧ devAnswer s = some (.err d))
    ∧ (t.resp = some ⟨.illegal, d⟩ ↔
      ∃ w rest, s.host = .command w :: rest ∧ legalWord w = false ∧ d = 0#64)

/-- A command that reports an error writes no state of the block: errors are precise (R172, derived there). -/
def Obligations.FailedCommandWritesNoState : Prop :=
  ∀ (s t : State) (r : Response), step s = .next t → t.resp = some r → r.status ≠ .ok → SameBlock s t

/-- A step that takes a command word and does not stop drives one response, its status one of the numbers 0 to 4 (R64, R65); a step
that takes no word drives none. -/
def Obligations.EveryCommandAnswersOnce : Prop :=
  ∀ s t : State, step s = .next t →
    (∀ w rest, s.host = .command w :: rest → ∃ r, t.resp = some r ∧ (statusCode r.status).toNat ≤ 4)
      ∧ ((∀ w rest, s.host ≠ .command w :: rest) → t.resp = none)

/-- `set_char_flush` reports the FLUSH outcome unchanged, and the buffer write has taken effect although the FLUSH failed
(R69, R174). -/
def Obligations.SetCharFlushPropagatesTransportError : Prop :=
  ∀ (p : Position) (c : CodePoint) (s : State) (e : TErr) (rest : List (Option DevReply)),
    s.devAnswers = some (.err e) :: rest →
    ∃ t, runCommands (setCharFlushCommands p c) s = .next t ∧ t.resp = some ⟨.transportError, e⟩
      ∧ ∀ q : Position, readMask t q = if q = p then glyph s.rom c else readMask s q
end

