-- ==== Sys2Proof/Tests/Slice0.lean ====
section
/-! SUPPORT. The model's own tests. Expected results are those of spec/95_test_vectors.md (V-…) and of the examples in the rules. The
theorems named witness_… show, for each statement with hypotheses, a state and operands that meet them together. -/

namespace Sys2Proof.Tests

open Sys2Proof Sys2Proof.Machine

/-! ## Helpers -/

/-- A state with the given buffer, cursor and dot-folding state; the rest as after reset. -/
def mk (db : Vector Mask 4) (cur : BitVec 3) (fst : FoldState) : State := { State.reset with db := db, cur := cur, fst := fst }

/-- A state as after reset with the given buffer. -/
def buf (db : Vector Mask 4) : State := mk db 0 .none

/-- What a test looks at: buffer, cursor, dot-folding state and response of a next state. -/
def view (o : Host.Outcome State Fault Refusal) : Option (Vector Mask 4 × BitVec 3 × FoldState × Option Response) :=
  match o with
  | .next t => some (t.db, t.cur, t.fst, t.resp)
  | _ => none

/-- The buffer and the response of a next state. -/
def viewBuf (o : Host.Outcome State Fault Refusal) : Option (Vector Mask 4 × Option Response) :=
  (view o).map fun v => (v.1, v.2.2.2)

/-- The response of a next state. -/
def viewResp (o : Host.Outcome State Fault Refusal) : Option Response :=
  (view o).bind fun v => v.2.2.2

/-- The next state, or the state itself where there is none. -/
def nextOr (s : State) (o : Host.Outcome State Fault Refusal) : State :=
  match o with
  | .next t => t
  | _ => s

/-- The state with one word presented. -/
def fed (s : State) (w : CmdWord) : State := { s with host := [.command w] }

/-! ## Legal and illegal words: R63, V-I1 to V-I18 -/

theorem test_illegal_reserved_opcode :
    legalWord 0x00000000 = false ∧ legalWord 0xE0000000 = false ∧ legalWord 0xF0000000 = false := by decide

theorem test_illegal_rsv : legalWord 0x10200041 = false := by decide

theorem test_illegal_must_be_zero :
    legalWord 0x14000041 = false ∧ legalWord 0x22000041 = false ∧ legalWord 0x2200000A = false
      ∧ legalWord 0x30000001 = false ∧ legalWord 0x44010000 = false ∧ legalWord 0x52000041 = false
      ∧ legalWord 0x6A000001 = false ∧ legalWord 0x72000000 = false ∧ legalWord 0x84000000 = false
      ∧ legalWord 0x90000001 = false ∧ legalWord 0xA400002E = false ∧ legalWord 0xB0000001 = false
      ∧ legalWord 0xC2000000 = false ∧ legalWord 0xD4000000 = false := by decide

theorem test_decode_rejects_by_name :
    decode 0xE0000000 = .error .reservedOpcode ∧ decode 0x10200041 = .error .reservedField
      ∧ decode 0x44010000 = .error .mustBeZero ∧ decode 0xC2000000 = .error .mustBeZero
      ∧ decode 0x30000001 = .error .mustBeZero ∧ decode 0x6A000001 = .error .mustBeZero := by decide

/-- V-I7: ILLEGAL wins over NO_MAPPING (R173), and the buffer stays. -/
theorem test_step_illegal :
    viewBuf (step (fed (buf #v[1, 2, 3, 4]) 0x2200000A)) = some (#v[1, 2, 3, 4], some ⟨.illegal, 0⟩) := by decide

/-- V-I17: an illegal FLUSH word calls no device. -/
theorem test_step_illegal_flush : (nextOr State.reset (step (fed State.reset 0xC2000000))).devOut = none := by decide

/-! ## Decoding: words written out from R62 and the examples of the rules -/

theorem test_decode_lookup : decode 0b00010000000000000000000000111000 = .ok (.lookup 0x38) := by decide

theorem test_decode_chk_lookup : decode 0b00100000000111111111111111111111 = .ok (.chkLookup 0x1FFFFF) := by decide

theorem test_decode_addr_of : decode 0b00111000000000000000000000000000 = .ok (.addrOf 2) := by decide

theorem test_decode_set_mask : decode 0b01000100000000000100000011111111 = .ok (.setMask 1 0x40FF) := by decide

theorem test_decode_set_char : decode 0b01010100000000000000000000101110 = .ok (.setChar 1 0x2E) := by decide

theorem test_decode_set_dot :
    decode 0b01101010000000000000000000000000 = .ok (.setDot 2 true)
      ∧ decode 0b01101000000000000000000000000000 = .ok (.setDot 2 false) := by decide

theorem test_decode_toggle_dot : decode 0b01111100000000000000000000000000 = .ok (.toggleDot 3) := by decide

theorem test_decode_no_operands :
    decode 0b10000000000000000000000000000000 = .ok .clear ∧ decode 0b10010000000000000000000000000000 = .ok .txtStart
      ∧ decode 0b10110000000000000000000000000000 = .ok .rawBytes
      ∧ decode 0b11000000000000000000000000000000 = .ok .flush := by decide

theorem test_decode_txt_char : decode 0b10100000000000000000000000101110 = .ok (.txtChar 0x2E) := by decide

theorem test_decode_pos_check : decode 0b11010000000000000000000000000100 = .ok (.posCheck 4) := by decide

theorem test_decode_table_word : decodeTableWord 32 0x4C00FFFF = some (.setMask 3 0xFFFF) := by decide

/-- P3 row 0, as the first command after reset. -/
theorem test_fetch_runs_first :
    viewBuf (step (State.reset.withFetchWord 32 0x50000048)) = some (#v[0x00F6, 0, 0, 0], some ⟨.ok, 0⟩) := by decide

/-! ## The Glyph ROM: V-G1, V-G2, V-G8, V-G9 -/

theorem test_lookup_mapped : viewResp (exec (.lookup 0x7E) State.reset) = some ⟨.ok, 0x0520⟩ := by decide

theorem test_lookup_unmapped : viewResp (exec (.lookup 0x7F) State.reset) = some ⟨.ok, 0x1083⟩ := by decide

theorem test_chk_lookup_mapped : viewResp (exec (.chkLookup 0x20) State.reset) = some ⟨.ok, 0x0000⟩ := by decide

theorem test_chk_lookup_unmapped : viewResp (exec (.chkLookup 0x1F) State.reset) = some ⟨.noMapping, 0x1F⟩ := by decide

/-! ## The display buffer: V-B -/

/-- V-B4. -/
theorem test_addr_of : viewResp (exec (.addrOf 3) State.reset) = some ⟨.ok, 0x706⟩ := by decide

/-- V-B6. -/
theorem test_set_mask :
    viewBuf (exec (.setMask 1 0) (buf #v[1, 2, 3, 4])) = some (#v[1, 0, 3, 4], some ⟨.ok, 0⟩) := by decide

/-- V-B9: no folding. -/
theorem test_set_char_dot : viewBuf (exec (.setChar 1 0x2E) State.reset) = some (#v[0, 0x4000, 0, 0], some ⟨.ok, 0⟩) := by decide

/-- V-B10. -/
theorem test_set_char_unmapped :
    viewBuf (exec (.setChar 0 0x7F) State.reset) = some (#v[0x1083, 0, 0, 0], some ⟨.ok, 0⟩) := by decide

/-- V-B15. -/
theorem test_set_dot_on :
    viewBuf (exec (.setDot 3 true) (buf #v[0, 0, 0, 0xBFFF])) = some (#v[0, 0, 0, 0xFFFF], some ⟨.ok, 0⟩) := by decide

/-- V-B16. -/
theorem test_set_dot_off :
    viewBuf (exec (.setDot 2 false) (buf #v[0, 0, 0xFFFF, 0])) = some (#v[0, 0, 0xBFFF, 0], some ⟨.ok, 0⟩) := by decide

/-- The variant of conflict C2, dot bit 0x0040 in the low byte: R7. -/
theorem test_set_dot_other_mask :
    viewBuf (exec (.setDot 2 true) { buf #v[0, 0, 0xFF00, 0] with params := ⟨0x0040, 0⟩ })
      = some (#v[0, 0, 0xFF40, 0], some ⟨.ok, 0⟩) := by decide

/-- V-B18. -/
theorem test_toggle_dot :
    viewBuf (exec (.toggleDot 1) (buf #v[0, 0x40FF, 0, 0])) = some (#v[0, 0x00FF, 0, 0], some ⟨.ok, 0⟩) := by decide

/-- V-B19. -/
theorem test_clear :
    viewBuf (exec .clear (buf #v[0x1234, 0x5678, 0x9ABC, 0xDEF0])) = some (#v[0, 0, 0, 0], some ⟨.ok, 0⟩) := by decide

/-- V-B21: low byte first. -/
theorem test_raw_bytes :
    viewResp (exec .rawBytes (buf #v[0x0102, 0x0304, 0x0506, 0x0708])) = some ⟨.ok, 0x0708050603040102⟩ := by decide

/-- V-B23. -/
theorem test_pos_check_valid : viewResp (exec (.posCheck 3) State.reset) = some ⟨.ok, 3⟩ := by decide

/-- V-B24. -/
theorem test_pos_check_invalid : viewResp (exec (.posCheck 4) State.reset) = some ⟨.invalidPosition, 4⟩ := by decide

/-! ## The dot-folding state machine -/

/-- R103: the buffer is not cleared. -/
theorem test_txt_start :
    view (exec .txtStart (mk #v[1, 2, 3, 4] 3 .fold)) = some (#v[1, 2, 3, 4], 0, .none, some ⟨.ok, 0⟩) := by decide

/-- P2 row 4: the escape. -/
theorem test_txt_char_escape :
    view (exec (.txtChar 0x2E) (mk #v[0x40F7, 0, 0, 0] 1 .fold))
      = some (#v[0x00F7, 0x4000, 0, 0], 2, .none, some ⟨.ok, 0⟩) := by decide

/-- V-T15, V-E12: a dot with the buffer full does not fold. -/
theorem test_txt_char_full :
    view (exec (.txtChar 0x2E) (mk #v[0xFF, 0xFF, 0xFF, 0xFF] 4 .char))
      = some (#v[0xFF, 0xFF, 0xFF, 0xFF], 4, .char, some ⟨.ok, 0⟩) := by decide

/-- V-E4, V-E7, V-E8, V-T10, V-T19 through the layout of R111: "8..88", ".888", eight dots, "8.8.8.8.", "A.B..C". -/
theorem test_text_layout :
    textLayout 0x4000 glyphRom 4 [0x38, 0x2E, 0x2E, 0x38, 0x38] = [0x00FF, 0x4000, 0x00FF, 0x00FF]
      ∧ textLayout 0x4000 glyphRom 4 [0x2E, 0x38, 0x38, 0x38] = [0x4000, 0x00FF, 0x00FF, 0x00FF]
      ∧ textLayout 0x4000 glyphRom 4 (List.replicate 8 0x2E) = [0x4000, 0x4000, 0x4000, 0x4000]
      ∧ textLayout 0x4000 glyphRom 4 [0x38, 0x2E, 0x38, 0x2E, 0x38, 0x2E, 0x38, 0x2E] = [0x40FF, 0x40FF, 0x40FF, 0x00FF]
      ∧ textLayout 0x4000 glyphRom 4 [0x41, 0x2E, 0x42, 0x2E, 0x2E, 0x43] = [0x40F7, 0x128F, 0x4000, 0x0039] := by decide

/-- V-T8, V-T9, V-T19: positions taken by "8...", "8....", "A.B..C". -/
theorem test_positions_taken :
    positionsTaken false [0x38, 0x2E, 0x2E, 0x2E] = 3 ∧ positionsTaken false [0x38, 0x2E, 0x2E, 0x2E, 0x2E] = 4
      ∧ positionsTaken false [0x41, 0x2E, 0x42, 0x2E, 0x2E, 0x43] = 4 := by decide

/-! ## FLUSH: V-F2, V-F3 -/

/-- The buffer of V-F2 and V-F3, with the device's next answer. -/
def flushState (a : Option DevReply) : State := { buf #v[0x40FF, 0x4000, 0x00FF, 0x00FF] with devAnswers := [a] }

theorem test_flush_ok :
    (nextOr State.reset (exec .flush (flushState (some .ok)))).devOut
      = some ⟨0x00, #v[0xFF, 0x40, 0x00, 0x40, 0xFF, 0x00, 0xFF, 0x00]⟩ := by decide

theorem test_flush_err :
    viewBuf (exec .flush (flushState (some (.err 0x2A))))
      = some (#v[0x40FF, 0x4000, 0x00FF, 0x00FF], some ⟨.transportError, 0x2A⟩) := by decide

/-- The same call for a device whose display RAM starts elsewhere: R7, "another instantiation changes no rule". -/
theorem test_flush_other_base :
    (nextOr State.reset (exec .flush { flushState (some .ok) with params := ⟨0x4000, 0x10⟩ })).devOut
      = some ⟨0x10, #v[0xFF, 0x40, 0x00, 0x40, 0xFF, 0x00, 0xFF, 0x00]⟩ := by decide

/-- From reset, with no answer written down, the presented FLUSH is executed; the free value decides how it ends. -/
theorem test_flush_from_reset :
    step (State.reset.withFetchWord 32 0xC0000000) = exec .flush State.reset := rfl

/-! ## Assembly text: R69 -/

theorem test_asm_text : asmText (.setDot 2 true) = "set_dot 2, 1" := by decide

/-! ## Witnesses: encoding and step -/

theorem witness_DecodedWordIsItsEncoding : ∃ w i, decode w = .ok i := ⟨0x6A000000, .setDot 2 true, by decide⟩

/-- One word for each of R63 (a), (b) and (c). -/
theorem witness_IllegalWordAnswersIllegal :
    (∃ s : State, ∃ rest, s.host = .command 0xF0000000 :: rest ∧ legalWord 0xF0000000 = false)
      ∧ (∃ s : State, ∃ rest, s.host = .command 0x11E00000 :: rest ∧ legalWord 0x11E00000 = false)
      ∧ ∃ s : State, ∃ rest, s.host = .command 0x30000001 :: rest ∧ legalWord 0x30000001 = false :=
  ⟨⟨fed State.reset _, [], rfl, by decide⟩, ⟨fed State.reset _, [], rfl, by decide⟩, ⟨fed State.reset _, [], rfl, by decide⟩⟩

theorem witness_StepRunsTheDecodedCommand :
    ∃ (s : State) (w : CmdWord) (rest : List HostInput) (i : Instr), s.host = .command w :: rest ∧ decode w = .ok i :=
  ⟨fed State.reset 0x80000000, _, [], .clear, rfl, by decide⟩

theorem witness_ResetEventRestoresResetValues :
    ∃ (s : State) (rest : List HostInput), s.host = .reset :: rest ∧ s.cur = 3 :=
  ⟨{ mk #v[1, 2, 3, 4] 3 .char with host := [.reset] }, [], rfl, rfl⟩

theorem witness_NothingPresentedWritesNothing : ∃ s : State, s.host = [] := ⟨State.reset, rfl⟩

theorem witness_EveryStepKeepsTextInvariant :
    ∃ s t : State, TextInv s ∧ step s = .next t ∧ t.cur = 4 :=
  ⟨fed (mk #v[0, 0, 0, 0] 3 .char) 0xA0000038, _, by decide, rfl, by decide⟩

theorem witness_EveryStepKeepsRomAndConfiguration : ∃ s t : State, step s = .next t := ⟨fed State.reset 0x80000000, _, rfl⟩

/-- One state for each way `CUR` can change: the reset event, TXT_START, TXT_CHAR. -/
theorem witness_OnlyTextCommandsAndResetMoveCursor :
    (∃ s t : State, s.host = [.reset] ∧ step s = .next t ∧ t.cur ≠ s.cur)
      ∧ (∃ s t : State, s.host = [.command 0x90000000] ∧ step s = .next t ∧ t.cur ≠ s.cur)
      ∧ ∃ s t : State, s.host = [.command 0xA0000038] ∧ step s = .next t ∧ t.cur ≠ s.cur :=
  ⟨⟨{ mk #v[0, 0, 0, 0] 4 .char with host := [.reset] }, _, rfl, rfl, by decide⟩,
    ⟨fed (mk #v[0, 0, 0, 0] 4 .char) 0x90000000, _, rfl, rfl, by decide⟩,
    ⟨fed (mk #v[0, 0, 0, 0] 3 .char) 0xA0000038, _, rfl, rfl, by decide⟩⟩

theorem witness_OnlyWritersChangeBuffer : ∃ (i : Instr) (s t : State), exec i s = .next t ∧ t.db ≠ s.db :=
  ⟨.toggleDot 3, State.reset, _, rfl, by decide⟩

theorem witness_OnlyTxtCharReadsCursorAndFoldState :
    ∃ (i : Instr) (s t : State), (∀ ch, i ≠ .txtChar ch) ∧ exec i s = .next t :=
  ⟨.rawBytes, State.reset, _, fun ch => by simp, rfl⟩

/-! ## Witnesses: the ranges of a character and of an integer -/

/-- The clauses of the character ranges at their boundary values: 0x1F, 0x20, 0x7E, 0x7F (LookupAnswersGlyph,
ChkLookupAnswersGlyphOrNoMapping, SetCharWritesGlyph). -/
theorem witness_character_ranges :
    (0x1F#21).toNat < 0x20 ∧ (0x20#21).toNat = 0x20 + (0 : Fin 95).val ∧ (0x7E#21).toNat = 0x20 + (94 : Fin 95).val
      ∧ 0x7E < (0x7F#21).toNat := by decide

theorem witness_LookupLaws :
    Mapped 0x20 ∧ ¬ Mapped 0x7F ∧ ∃ t d, exec (.chkLookup 0x7E) State.reset = .next t ∧ t.resp = some ⟨.ok, d⟩ :=
  ⟨by decide, by decide, _, 0x0520, rfl, by decide⟩

theorem witness_PosCheckAnswersPositionOrInvalid : (3#21).toNat < 4 ∧ 4 ≤ (4#21).toNat := by decide

/-! ## Witnesses: the buffer -/

theorem witness_AddrOfAnswersBytePair : (2 : Position) < 3 := by decide

theorem witness_ToggleDotFlipsDotBit :
    ∃ (p : Position) (s t u : State), exec (.toggleDot p) s = .next t ∧ exec (.toggleDot p) t = .next u :=
  ⟨3, State.reset, _, _, rfl, rfl⟩

/-- Each of the four commands, a byte outside its pair, and a `DOT_MASK` in the high byte and one in the low byte. -/
theorem witness_DigitWritesChangeOneDigit :
    (∃ t, exec (.setMask 3 0xFFFF) State.reset = .next t) ∧ (∃ t, exec (.setChar 0 0x2E) State.reset = .next t)
      ∧ (∃ t, exec (.setDot 1 true) State.reset = .next t) ∧ (∃ t, exec (.toggleDot 2) State.reset = .next t)
      ∧ (0 : ByteAddr) ≠ addrLow 3 ∧ (0 : ByteAddr) ≠ addrHigh 3
      ∧ (∃ t, exec (.setDot 1 true) { State.reset with params := ⟨0x0040, 0⟩ } = .next t)
      ∧ lowByte (0x4000 : Mask) = 0#8 ∧ highByte (0x0040 : Mask) = 0#8 :=
  ⟨⟨_, rfl⟩, ⟨_, rfl⟩, ⟨_, rfl⟩, ⟨_, rfl⟩, by decide, by decide, ⟨_, rfl⟩, by decide, by decide⟩

/-- Each of the six commands. -/
theorem witness_ReadingCommandsWriteNothing :
    (∃ t, exec (.lookup 0x38) State.reset = .next t) ∧ (∃ t, exec (.chkLookup 0x0A) State.reset = .next t)
      ∧ (∃ t, exec (.addrOf 3) State.reset = .next t) ∧ (∃ t, exec .rawBytes State.reset = .next t)
      ∧ (∃ t, exec (.posCheck 7) State.reset = .next t) ∧ ∃ t, exec .flush (flushState (some .ok)) = .next t :=
  ⟨⟨_, rfl⟩, ⟨_, rfl⟩, ⟨_, rfl⟩, ⟨_, rfl⟩, ⟨_, rfl⟩, ⟨_, rfl⟩⟩

theorem witness_DotCommandsKeepNonDotBits :
    (∃ t, exec (.setDot 3 false) (buf #v[0, 0, 0, 0xFFFF]) = .next t)
      ∧ (∃ t, exec (.setDot 3 true) (buf #v[0, 0, 0, 0xBFFF]) = .next t)
      ∧ (∃ t, exec (.toggleDot 3) (buf #v[0, 0, 0, 0xBFFF]) = .next t) ∧ (2 : Position) ≠ 3 :=
  ⟨⟨_, rfl⟩, ⟨_, rfl⟩, ⟨_, rfl⟩, by decide⟩

theorem witness_SetMaskReadsBackInRawBytes :
    ∃ (p : Position) (m : Mask) (s t : State), exec (.setMask p m) s = .next t :=
  ⟨3, 0xFFFF, State.reset, _, rfl⟩

/-! ## Witnesses: the dot-folding state machine -/

theorem witness_TxtCharDiscardsWhenFull : ∃ s : State, s.cur = 4#3 := ⟨mk #v[0, 0, 0, 0] 4 .char, rfl⟩

/-- The first and the last position. -/
theorem witness_TxtCharWritesStandaloneDot :
    (∃ s : State, s.cur.toNat = (0 : Position).val ∧ s.fst = .none) ∧ ∃ s : State, s.cur.toNat = (3 : Position).val ∧ s.fst = .none :=
  ⟨⟨State.reset, rfl, rfl⟩, ⟨mk #v[0, 0, 0, 0] 3 .none, rfl, rfl⟩⟩

theorem witness_TxtCharFoldsDot :
    (∃ s : State, (0 : Position).val < 3 ∧ s.cur.toNat = (0 : Position).val + 1 ∧ s.fst = .char)
      ∧ ∃ s : State, (2 : Position).val < 3 ∧ s.cur.toNat = (2 : Position).val + 1 ∧ s.fst = .char :=
  ⟨⟨mk #v[0xFF, 0, 0, 0] 1 .char, by decide, rfl, rfl⟩, ⟨mk #v[0, 0, 0xFF, 0] 3 .char, by decide, rfl, rfl⟩⟩

theorem witness_TxtCharEscapesSecondDot :
    (∃ s : State, (1 : Position).val = (0 : Position).val + 1 ∧ s.cur.toNat = (1 : Position).val ∧ s.fst = .fold)
      ∧ ∃ s : State, (3 : Position).val = (2 : Position).val + 1 ∧ s.cur.toNat = (3 : Position).val ∧ s.fst = .fold :=
  ⟨⟨mk #v[0x40FF, 0, 0, 0] 1 .fold, rfl, rfl, rfl⟩, ⟨mk #v[0, 0, 0x40FF, 0] 3 .fold, rfl, rfl, rfl⟩⟩

theorem witness_TxtCharWritesGlyph :
    (0x2D#21) ≠ 0x2E#21 ∧ (0x2D#21).toNat = 0x20 + (13 : Fin 95).val ∧ (0x7F#21) ≠ 0x2E#21 ∧ 0x7E < (0x7F#21).toNat
      ∧ (0x1F#21) ≠ 0x2E#21 ∧ (0x1F#21).toNat < 0x20 ∧ (∃ s : State, s.cur.toNat = (0 : Position).val)
      ∧ ∃ s : State, s.cur.toNat = (3 : Position).val :=
  ⟨by decide, by decide, by decide, by decide, by decide, by decide, ⟨State.reset, rfl⟩, ⟨mk #v[0, 0, 0, 0] 3 .char, rfl⟩⟩

theorem witness_TxtCharAlwaysCompletes : TextInv State.reset ∧ TextInv (mk #v[0, 0, 0x40FF, 0] 3 .fold) := by decide

theorem witness_OnlyASilentDeviceStopsTheBlock :
    ∃ (s : State) (f : Fault), TextInv s ∧ step s = .fault f :=
  ⟨fed (flushState none) 0xC0000000, .deviceSilent, by decide, rfl⟩

/-! ## Witnesses: a whole text -/

theorem witness_RomOk : RomOk State.reset.params.dotMask State.reset.rom := by decide

/-- "8" ends with `CUR` = 1: there is a position below `CUR` and one from it on (TextWritesDoNotDependOnPriorBuffer,
SetTextIsIdempotent, TextTakesCountedPositions). -/
theorem witness_short_text :
    ∃ s s' t t' : State, s.rom = s'.rom ∧ s.params.dotMask = s'.params.dotMask ∧ runCommands (setTextCommands [0x38]) s = .next t
      ∧ runCommands (setTextCommands [0x38]) s' = .next t' ∧ (0 : Position).val < t.cur.toNat
      ∧ t.cur.toNat ≤ (1 : Position).val :=
  ⟨State.reset, buf #v[1, 2, 3, 4], _, _, rfl, rfl, rfl, rfl, by decide, by decide⟩

/-- Four dots fill the buffer. -/
theorem witness_TextIsTruncatedWhenFull :
    ∃ s t : State, runCommands (setTextCommands [0x2E, 0x2E, 0x2E, 0x2E]) s = .next t ∧ t.cur = 4#3 :=
  ⟨State.reset, _, rfl, by decide⟩

/-! ## Witnesses: FLUSH, responses and errors -/

theorem witness_FlushAnswersTheDevice :
    (∃ s : State, devAnswer s = some .ok) ∧ ∃ (s : State) (e : TErr), devAnswer s = some (.err e) :=
  ⟨⟨flushState (some .ok), rfl⟩, ⟨flushState (some (.err 0x2A)), 0x2A, rfl⟩⟩

theorem witness_FlushUsesUpOneAnswer :
    (∃ s : State, ∃ rest, s.devAnswers = some .ok :: rest) ∧ ∃ s : State, ∃ rest e, s.devAnswers = some (.err e) :: rest :=
  ⟨⟨flushState (some .ok), [], rfl⟩, ⟨flushState (some (.err 0x2A)), [], 0x2A, rfl⟩⟩

/-- Which of the three clauses holds nobody knows: they are a disjunction, not hypotheses. -/
theorem witness_FlushDrawsAFreeAnswer : ∃ s : State, s.devAnswers = [] := ⟨State.reset, rfl⟩

theorem witness_FlushIsStuckOnASilentDevice :
    (∃ s : State, ∃ rest, devAnswer s = none ∧ s.devAnswers = none :: rest) ∧ ∃ s t : State, exec .flush s = .next t :=
  ⟨⟨flushState none, [], rfl, rfl⟩, flushState (some .ok), _, rfl⟩

/-- P3: the first FLUSH fails, the second succeeds. -/
theorem witness_FlushRetrySendsSameBytes :
    ∃ s t u : State, exec .flush s = .next t ∧ exec .flush t = .next u :=
  ⟨{ State.reset with devAnswers := [some (.err 0x2A), some .ok] }, _, _, rfl, rfl⟩

theorem witness_FlushSendsRawBytesFromBase :
    ∃ s t u : State, exec .rawBytes s = .next t ∧ exec .flush s = .next u :=
  ⟨flushState (some .ok), _, _, rfl, rfl⟩

theorem witness_OnlyFlushCallsTheDevice : ∃ s t : State, step s = .next t ∧ t.devOut ≠ none :=
  ⟨fed (flushState (some .ok)) 0xC0000000, _, rfl, by decide⟩

/-- One step for each error status; FailedCommandWritesNoState and EveryCommandAnswersOnce too. -/
theorem witness_ErrorStatusCauses :
    (∃ s t : State, step s = .next t ∧ t.resp = some ⟨.noMapping, 0x7F⟩)
      ∧ (∃ s t : State, step s = .next t ∧ t.resp = some ⟨.invalidPosition, 4⟩)
      ∧ (∃ s t : State, step s = .next t ∧ t.resp = some ⟨.transportError, 0x2A⟩)
      ∧ ∃ s t : State, step s = .next t ∧ t.resp = some ⟨.illegal, 0⟩ :=
  ⟨⟨fed State.reset 0x2000007F, _, rfl, by decide⟩, ⟨fed State.reset 0xD0000004, _, rfl, by decide⟩,
    ⟨fed (flushState (some (.err 0x2A))) 0xC0000000, _, rfl, by decide⟩, ⟨fed State.reset 0x00000000, _, rfl, by decide⟩⟩

/-- A step that takes no word: the reset event, and an idle step (EveryCommandAnswersOnce, second clause). -/
theorem witness_EveryCommandAnswersOnce :
    (∃ s t : State, step s = .next t ∧ ∀ w rest, s.host ≠ .command w :: rest)
      ∧ ∃ s t : State, ∃ w rest, step s = .next t ∧ s.host = .command w :: rest :=
  ⟨⟨State.reset, _, rfl, fun w rest => by simp [State.reset]⟩, ⟨fed State.reset 0x80000000, _, 0x80000000, [], rfl, rfl⟩⟩

theorem witness_SetCharFlushPropagatesTransportError :
    ∃ (s : State) (e : TErr) (rest : List (Option DevReply)), s.devAnswers = some (.err e) :: rest :=
  ⟨flushState (some (.err 0x2A)), 0x2A, [], rfl⟩

end Sys2Proof.Tests
end

section
/-! PROOFS. One step as an equation per kind of presented input (spec/00_scope.md R10, spec/20_memory.md R50, R51), and the
obligations about the execution of a decoded command and the idle step. -/

namespace Sys2Proof.Machine

section StepEquations
variable {s : State} {x : HostInput} {w : CmdWord} {rest : List HostInput} {i : Instr}

/-- Beginning a step takes exactly the presented input, whichever it is. -/
theorem beginStep_of_host_cons (hs : s.host = x :: rest) :
    beginStep s = { s with host := rest, resp := none, devOut := none } := by
  simp only [beginStep, hs, List.tail_cons]

/-- Beginning a step on an empty stream only undrives the ports. -/
theorem beginStep_of_host_nil (hs : s.host = []) : beginStep s = { s with resp := none, devOut := none } := by
  simp only [beginStep, hs, List.tail_nil]

theorem step_of_host_nil (hs : s.host = []) : step s = .next (beginStep s) := by
  simp only [step, hs]

theorem step_of_decode_ok (hs : s.host = .command w :: rest) (hi : decode w = .ok i) : step s = exec i (beginStep s) := by
  simp only [step, hs, hi]

end StepEquations

/-- Settles O6: the step is `exec i` after `beginStep`, and `beginStep` takes just the word. -/
theorem stepRunsTheDecodedCommand : Obligations.StepRunsTheDecodedCommand := by
  intro s w rest i hs hi
  rw [step_of_decode_ok hs hi, beginStep_of_host_cons hs]

/-- Settles O8: the idle step is `beginStep` alone, which has no input to take. -/
theorem nothingPresentedWritesNothing : Obligations.NothingPresentedWritesNothing := by
  intro s hs
  rw [step_of_host_nil hs, beginStep_of_host_nil hs]

end Sys2Proof.Machine
end

section
/-! PROOFS. What one completed command does and what one completed step does, each said once, and the obligations of
spec/10_state.md about the state: the reset values, the invariants of R27, the frames of the ROM, the configuration, the cursor and
the buffer, and what no command reads. -/

namespace Sys2Proof.Machine

/-! ## What a completed command does -/

/-- What a command that completes does to the state: its response and every write, under the condition it completes so. One
constructor per command and outcome (R86, R87, R103, R104, R133 to R140, R160). -/
inductive Effect (s : State) : Instr → State → Prop where
  | lookup (c : CodePoint) : Effect s (.lookup c) (respond .ok (glyph s.rom c) s)
  | mapped (c : CodePoint) (hc : Mapped c) : Effect s (.chkLookup c) (respond .ok (romRead s.rom c hc) s)
  | unmapped (c : CodePoint) (hc : ¬ Mapped c) : Effect s (.chkLookup c) (respond .noMapping c s)
  | addrOf (p : Position) : Effect s (.addrOf p) (respond .ok (addrPair p) s)
  | setMask (p : Position) (m : Mask) : Effect s (.setMask p m) (respond .ok noData (writeMask p m s))
  | setChar (p : Position) (c : CodePoint) :
      Effect s (.setChar p c) (respond .ok noData (writeMask p (glyph s.rom c) s))
  | setDot (p : Position) (en : Bool) :
      Effect s (.setDot p en) (respond .ok noData (writeMask p
        (if en then withDot s.params.dotMask (readMask s p) else withoutDot s.params.dotMask (readMask s p)) s))
  | toggleDot (p : Position) :
      Effect s (.toggleDot p) (respond .ok noData (writeMask p (flipDot s.params.dotMask (readMask s p)) s))
  | clear : Effect s .clear (respond .ok noData (clearBuffer s))
  | txtStart : Effect s .txtStart (respond .ok noData (setText 0#3 .none s))
  | txtChar (c : CodePoint) (u : State) (hu : consumeChar c s = some u) : Effect s (.txtChar c) (respond .ok noData u)
  | rawBytes : Effect s .rawBytes (respond .ok (wireWord s) s)
  | flush (r : DevReply) (hr : devAnswer s = some r) : Effect s .flush (respondReply r (callDevice (flushCall s) s))
  | valid (n : PosInt) (hn : validPosition n = true) : Effect s (.posCheck n) (respond .ok n s)
  | invalid (n : PosInt) (hn : ¬ validPosition n = true) : Effect s (.posCheck n) (respond .invalidPosition n s)

theorem execChkLookup_mapped {c : CodePoint} (s : State) (h : Mapped c) :
    execChkLookup c s = .next (respond .ok (romRead s.rom c h) s) := dif_pos h

theorem execChkLookup_unmapped {c : CodePoint} (s : State) (h : ¬ Mapped c) :
    execChkLookup c s = .next (respond .noMapping c s) := dif_neg h

theorem execPosCheck_valid {n : PosInt} (s : State) (h : validPosition n = true) :
    execPosCheck n s = .next (respond .ok n s) := if_pos h

theorem execPosCheck_invalid {n : PosInt} (s : State) (h : ¬ validPosition n = true) :
    execPosCheck n s = .next (respond .invalidPosition n s) := if_neg h

theorem execFlush_of_devAnswer {s : State} {r : DevReply} (h : devAnswer s = some r) :
    execFlush s = .next (respondReply r (callDevice (flushCall s) s)) := by
  simp only [execFlush, h]

/-- A command that completes has its effect: the one inversion of `exec`. -/
theorem exec_effect {i : Instr} {s t : State} (h : exec i s = .next t) : Effect s i t := by
  cases i with
  | lookup c => cases h; exact .lookup c
  | chkLookup c =>
    by_cases hc : Mapped c
    · cases (execChkLookup_mapped s hc).symm.trans h
      exact .mapped c hc
    · cases (execChkLookup_unmapped s hc).symm.trans h
      exact .unmapped c hc
  | addrOf p => cases h; exact .addrOf p
  | setMask p m => cases h; exact .setMask p m
  | setChar p c => cases h; exact .setChar p c
  | setDot p en => cases h; exact .setDot p en
  | toggleDot p => cases h; exact .toggleDot p
  | clear => cases h; exact .clear
  | txtStart => cases h; exact .txtStart
  | txtChar c =>
    obtain ⟨u, hu, rfl⟩ := execTxtChar_next h
    exact .txtChar c u hu
  | rawBytes => cases h; exact .rawBytes
  | flush =>
    obtain ⟨r, hr, rfl⟩ := execFlush_next h
    exact .flush r hr
  | posCheck n =>
    by_cases hn : validPosition n = true
    · cases (execPosCheck_valid s hn).symm.trans h
      exact .valid n hn
    · cases (execPosCheck_invalid s hn).symm.trans h
      exact .invalid n hn

/-- What a step that completes is: idle, the reset event, an illegal word, or one completed command. -/
theorem step_next_cases {s t : State} (h : step s = .next t) :
    (s.host = [] ∧ t = beginStep s)
    ∨ (∃ rest, s.host = .reset :: rest ∧ t = resetBlock (beginStep s))
    ∨ (∃ w rest e, s.host = .command w :: rest ∧ decode w = .error e ∧ t = respond .illegal noData (beginStep s))
    ∨ (∃ w rest i, s.host = .command w :: rest ∧ decode w = .ok i ∧ exec i (beginStep s) = .next t) := by
  rcases step_cases s with ⟨hs, hstep⟩ | ⟨rest, hs, hstep⟩ | ⟨w, rest, e, hs, he, hstep⟩ | ⟨w, rest, i, hs, hi, hstep⟩
  · cases hstep.symm.trans h
    exact .inl ⟨hs, rfl⟩
  · cases hstep.symm.trans h
    exact .inr (.inl ⟨rest, hs, rfl⟩)
  · cases hstep.symm.trans h
    exact .inr (.inr (.inl ⟨w, rest, e, hs, he, rfl⟩))
  · exact .inr (.inr (.inr ⟨w, rest, i, hs, hi, hstep.symm.trans h⟩))

/-! ## The invariants of R27 -/

/-- The invariants speak of `CUR` and `FST` alone. -/
theorem TextInv.congr {s t : State} (hs : TextInv s) (hcur : t.cur = s.cur) (hfst : t.fst = s.fst) : TextInv t := by
  simpa only [TextInv, hcur, hfst] using hs

/-- Right after a reset or a TXT_START the invariants hold, whatever held before. -/
theorem textInv_of_start {s : State} (hcur : s.cur = 0#3) (hfst : s.fst = .none) : TextInv s := by
  simp [TextInv, hcur, hfst]

/-- One character keeps the invariants: where `CUR` advances it named a digit before, and where a dot is folded the digit before
`CUR` exists and `CUR ≠ N` (R104 to R109). -/
theorem consumeChar_textInv {c : CodePoint} {s t : State} (hs : TextInv s) (h : consumeChar c s = some t) : TextInv t := by
  rcases consumeChar_cases h with ⟨-, rfl⟩ | ⟨-, -, p, hp, rfl⟩ | ⟨-, -, hfull, q, hq, rfl⟩ | ⟨-, -, -, p, -, hp, rfl⟩ | ⟨-, p, hp, rfl⟩
  · exact hs
  · simp [TextInv, cursor_succ hp]
  · have hcur : s.cur.toNat ≠ 4 := fun h4 => hfull (BitVec.eq_of_toNat_eq h4)
    simp [TextInv]
    omega
  · simp [TextInv, cursor_succ hp]
  · simp [TextInv, cursor_succ hp]

theorem exec_textInv {i : Instr} {s t : State} (hs : TextInv s) (h : exec i s = .next t) : TextInv t := by
  cases exec_effect h with
  | txtStart => exact textInv_of_start rfl rfl
  | txtChar c u hu => exact (consumeChar_textInv hs hu).congr rfl rfl
  | flush r _ => exact hs.congr (respondReply_cur ..) (respondReply_fst ..)
  | _ => exact hs.congr rfl rfl

/-- Settles O11: only the reset event, TXT_START and TXT_CHAR write `CUR` or `FST`, and each of them re-establishes R27. -/
theorem everyStepKeepsTextInvariant : Obligations.EveryStepKeepsTextInvariant := by
  intro s t hs h
  have hbegin : TextInv (beginStep s) := hs.congr rfl rfl
  rcases step_next_cases h with ⟨-, rfl⟩ | ⟨_, -, rfl⟩ | ⟨_, _, _, -, -, rfl⟩ | ⟨_, _, _, -, -, hexec⟩
  · exact hbegin
  · exact textInv_of_start rfl rfl
  · exact hbegin.congr rfl rfl
  · exact exec_textInv hbegin hexec

/-- Settles O10: reset starts the block like a TXT_START. -/
theorem textInvariantHoldsAtReset : Obligations.TextInvariantHoldsAtReset :=
  textInv_of_start rfl rfl

/-! ## The ROM and the configuration (R28, R7) -/

theorem consumeChar_rom_params {c : CodePoint} {s t : State} (h : consumeChar c s = some t) :
    t.rom = s.rom ∧ t.params = s.params := by
  rcases consumeChar_cases h with ⟨-, rfl⟩ | ⟨-, -, _, -, rfl⟩ | ⟨-, -, -, _, -, rfl⟩ | ⟨-, -, _, _, -, -, rfl⟩ | ⟨-, _, -, rfl⟩ <;>
    exact ⟨rfl, rfl⟩

theorem exec_rom_params {i : Instr} {s t : State} (h : exec i s = .next t) : t.rom = s.rom ∧ t.params = s.params := by
  cases exec_effect h with
  | txtChar c u hu => simpa using consumeChar_rom_params hu
  | flush r _ => exact ⟨respondReply_rom .., respondReply_params ..⟩
  | _ => exact ⟨rfl, rfl⟩

/-- Settles O12: no operation of a step has the ROM or the configuration among the fields it writes. -/
theorem everyStepKeepsRomAndConfiguration : Obligations.EveryStepKeepsRomAndConfiguration := by
  intro s t h
  rcases step_next_cases h with ⟨-, rfl⟩ | ⟨_, -, rfl⟩ | ⟨_, _, _, -, -, rfl⟩ | ⟨_, _, _, -, -, hexec⟩
  · exact ⟨rfl, rfl⟩
  · exact ⟨rfl, rfl⟩
  · exact ⟨rfl, rfl⟩
  · simpa using exec_rom_params hexec

/-! ## The cursor (R25, R143) -/

/-- One character leaves `CUR` or advances it by one, which does not wrap because `CUR` named a digit. -/
theorem consumeChar_cur {c : CodePoint} {s t : State} (h : consumeChar c s = some t) :
    t.cur = s.cur ∨ t.cur.toNat = s.cur.toNat + 1 := by
  rcases consumeChar_cases h with ⟨-, rfl⟩ | ⟨-, -, p, hp, rfl⟩ | ⟨-, -, -, _, -, rfl⟩ | ⟨-, -, _, p, -, hp, rfl⟩ | ⟨-, p, hp, rfl⟩
  · exact .inl rfl
  · exact .inr (by rw [setText_cur, cursor_succ hp, hp])
  · exact .inl rfl
  · exact .inr (by rw [setText_cur, cursor_succ hp, hp])
  · exact .inr (by rw [setText_cur, cursor_succ hp, hp])

theorem exec_cur {i : Instr} {s t : State} (h : exec i s = .next t) :
    t.cur = s.cur ∨ (i = .txtStart ∧ t.cur = 0#3) ∨ ∃ c, i = .txtChar c ∧ t.cur.toNat = s.cur.toNat + 1 := by
  cases exec_effect h with
  | txtStart => exact .inr (.inl ⟨rfl, rfl⟩)
  | txtChar c u hu => exact (consumeChar_cur hu).imp id fun hcur => .inr ⟨c, rfl, hcur⟩
  | flush r _ => exact .inl (respondReply_cur ..)
  | _ => exact .inl rfl

/-- Settles O13: of the four kinds of step two leave `CUR`, the reset event clears it, and a command does what `exec_cur` says. -/
theorem onlyTextCommandsAndResetMoveCursor : Obligations.OnlyTextCommandsAndResetMoveCursor := by
  intro s t h hne
  rcases step_next_cases h with ⟨-, rfl⟩ | ⟨rest, hs, rfl⟩ | ⟨_, _, _, -, -, rfl⟩ | ⟨w, rest, i, hs, hi, hexec⟩
  · exact absurd rfl hne
  · exact ⟨rest, .inl ⟨hs, rfl⟩⟩
  · exact absurd rfl hne
  · refine ⟨rest, .inr ⟨w, hs, ?_⟩⟩
    rcases exec_cur hexec with hcur | ⟨rfl, hcur⟩ | ⟨c, rfl, hcur⟩
    · exact absurd hcur hne
    · exact .inl ⟨hi, hcur⟩
    · exact .inr ⟨c, hi, hcur⟩

/-! ## The display buffer (R22, R24, R139) -/

/-- Settles O14: the other effects are an answer, a change of `CUR` and `FST`, or a device call, and none of these writes `DB`. -/
theorem onlyWritersChangeBuffer : Obligations.OnlyWritersChangeBuffer := by
  intro i s t h hne
  cases exec_effect h with
  | setMask p m => exact .inl ⟨p, m, rfl⟩
  | setChar p c => exact .inr (.inl ⟨p, c, rfl⟩)
  | setDot p en => exact .inr (.inr (.inl ⟨p, en, rfl⟩))
  | toggleDot p => exact .inr (.inr (.inr (.inl ⟨p, rfl⟩)))
  | clear => exact .inr (.inr (.inr (.inr (.inl rfl))))
  | txtChar c => exact .inr (.inr (.inr (.inr (.inr ⟨c, rfl⟩))))
  | flush r _ => exact absurd (respondReply_db ..) hne
  | _ => exact absurd rfl hne

/-- Byte k of the wire word is the byte at address k (R139). -/
theorem extractLsb'_wireWord_byte (s : State) (k : ByteAddr) : (wireWord s).extractLsb' (8 * k.val) 8 = memRead s k := by
  ext i hi
  rw [BitVec.getElem_extractLsb', ← BitVec.getLsbD_eq_getElem]
  -- Each address picks its byte by position: the conditions of `getLsbD_append` and the bit index are arithmetic.
  simp only [wireWord, BitVec.getLsbD_append]
  fin_cases k <;> simp (disch := omega) only [if_neg, if_pos] <;> congr 1 <;> omega

/-- The mask of digit p is the two bytes of the wire word at addresses 2p and 2p+1, `{high, low}` (R44, R131, R139). -/
theorem extractLsb'_wireWord_mask (s : State) (p : Position) :
    (wireWord s).extractLsb' (16 * p.val) 16 = readMask s p := by
  have hlow : (wireWord s).extractLsb' (16 * p.val) 8 = lowByte (readMask s p) := by
    rw [← memRead_addrLow, ← extractLsb'_wireWord_byte]
    congr 1
    simp only [addrLow]
    omega
  have hhigh : (wireWord s).extractLsb' (16 * p.val + 8) 8 = highByte (readMask s p) := by
    rw [← memRead_addrHigh, ← extractLsb'_wireWord_byte]
    congr 1
    simp only [addrHigh]
    omega
  calc (wireWord s).extractLsb' (16 * p.val) 16
      = (wireWord s).extractLsb' (16 * p.val + 8) 8 ++ (wireWord s).extractLsb' (16 * p.val) 8 :=
        (BitVec.extractLsb'_append_extractLsb'_eq_extractLsb' (len₁ := 8) (len₂ := 8) rfl).symm
    _ = maskOfBytes (highByte (readMask s p)) (lowByte (readMask s p)) := by rw [hlow, hhigh, maskOfBytes]
    _ = readMask s p := maskOfBytes_bytes _

/-- Settles O34: the answer is the wire word, whose field p is the mask just written. -/
theorem setMaskReadsBackInRawBytes : Obligations.SetMaskReadsBackInRawBytes := by
  intro p m s t h
  cases h
  refine ⟨_, _, rfl, rfl, ?_⟩
  simp [extractLsb'_wireWord_mask]

/-! ## What no command reads (R31, R33, R64, R142) -/

theorem respondReply_setText (r : DevReply) (c : BitVec 3) (f : FoldState) (s : State) :
    respondReply r (setText c f s) = setText c f (respondReply r s) := by cases r <;> rfl

/-- A command other than TXT_START and TXT_CHAR commutes with any change of `CUR` and `FST`: it neither reads nor writes them. -/
theorem exec_setText {i : Instr} {s t : State} (c : BitVec 3) (f : FoldState) (hstart : i ≠ .txtStart)
    (hchar : ∀ ch, i ≠ .txtChar ch) (h : exec i s = .next t) : exec i (setText c f s) = .next (setText c f t) := by
  cases exec_effect h with
  | mapped ch hch => exact execChkLookup_mapped (setText c f s) hch
  | unmapped ch hch => exact execChkLookup_unmapped (setText c f s) hch
  | txtStart => exact absurd rfl hstart
  | txtChar ch => exact absurd rfl (hchar ch)
  | flush r hr =>
    rw [← respondReply_setText]
    exact execFlush_of_devAnswer (s := setText c f s) hr
  | valid n hn => exact execPosCheck_valid (setText c f s) hn
  | invalid n hn => exact execPosCheck_invalid (setText c f s) hn
  | _ => rfl

/-- TXT_START overwrites both registers, so what they held does not matter. -/
theorem exec_txtStart_setText (c : BitVec 3) (f : FoldState) (s : State) :
    exec .txtStart (setText c f s) = exec .txtStart s := rfl

/-- Settles O15: TXT_START overwrites `CUR` and `FST`, and every other command commutes with their change. -/
theorem onlyTxtCharReadsCursorAndFoldState : Obligations.OnlyTxtCharReadsCursorAndFoldState := by
  intro i s t c f hchar h
  change ∃ u, exec i (setText c f s) = .next u ∧ _
  by_cases hstart : i = .txtStart
  · subst hstart
    exact ⟨t, (exec_txtStart_setText c f s).trans h, rfl, rfl, rfl, rfl, rfl⟩
  · exact ⟨setText c f t, exec_setText c f hstart hchar h, rfl, rfl, rfl, rfl, rfl⟩

/-- Settles O16: `beginStep` undrives both ports before anything else happens. -/
theorem outputPortsAreNotRead : Obligations.OutputPortsAreNotRead := by
  intro s r d
  have hbegin : beginStep { s with resp := r, devOut := d } = beginStep s := rfl
  simp only [step, hbegin]

/-! ## The reset values (R32, R190) -/

@[simp] theorem readMask_resetBlock (s : State) (p : Position) : readMask (resetBlock s) p = 0#16 := by
  simp [readMask]

theorem step_of_host_reset {s : State} {rest : List HostInput} (hs : s.host = .reset :: rest) :
    step s = .next (resetBlock (beginStep s)) := by
  simp only [step, hs]

/-- Settles O7: the step is `resetBlock` after `beginStep`, which takes just the event. -/
theorem resetEventRestoresResetValues : Obligations.ResetEventRestoresResetValues := by
  intro s rest hs
  have hhost : (resetBlock (beginStep s)).host = rest := by simp [hs]
  exact ⟨_, step_of_host_reset hs, readMask_resetBlock _, rfl, rfl, rfl, rfl, hhost, rfl, rfl, rfl, rfl⟩

/-- Settles O9: `State.reset` has the buffer that a reset event gives. -/
theorem resetStateValues : Obligations.ResetStateValues :=
  ⟨readMask_resetBlock State.reset, rfl, rfl, resetBlock_rom⟩

end Sys2Proof.Machine
end

section
/-! PROOFS. The byte space (spec/20_memory.md): a byte write as seen by a byte read (R40), the frame of the commands that write one
digit (R134 to R137), and the device side of a command and of a step (R41, R160, R163). -/

namespace Sys2Proof.Machine

/-! ## Byte writes (R40) -/

/-- A byte write is read back at its address and nowhere else: at the other address of its digit the old byte is put back. -/
theorem memRead_memWrite (s : State) (k j : ByteAddr) (v : Byte) :
    memRead (memWrite k v s) j = if j = k then v else memRead s j := by
  obtain ⟨p, rfl | rfl⟩ := byteAddr_cases k
  · by_cases hl : j = addrLow p
    · simp [hl]
    · by_cases hh : j = addrHigh p
      · simp [hh]
      · rw [if_neg hl, memWrite_addrLow, memRead_writeMask_other p _ s j hl hh]
  · by_cases hh : j = addrHigh p
    · simp [hh]
    · by_cases hl : j = addrLow p
      · simp [hl]
      · rw [if_neg hh, memWrite_addrHigh, memRead_writeMask_other p _ s j hl hh]

/-- A byte write is a write of the mask it belongs to. -/
theorem memWrite_eq_writeMask (s : State) (k : ByteAddr) (v : Byte) : ∃ p m, memWrite k v s = writeMask p m s := by
  obtain ⟨p, rfl | rfl⟩ := byteAddr_cases k
  · exact ⟨p, _, memWrite_addrLow p v s⟩
  · exact ⟨p, _, memWrite_addrHigh p v s⟩

/-- Settles O29: the read is the definition of `memRead`; a byte write writes one mask, whose other byte stays. -/
theorem byteSpaceIsTheBuffer : Obligations.ByteSpaceIsTheBuffer := by
  intro s k
  refine ⟨rfl, fun v => ⟨fun j => memRead_memWrite s k j v, ?_⟩⟩
  obtain ⟨p, m, hw⟩ := memWrite_eq_writeMask s k v
  exact ⟨s.db.set p.val m, hw⟩

/-! ## The commands that write one digit (R134 to R137) -/

/-- The three dot operations on a mask keep every byte-wide field in which the dot has no bit. -/
theorem extractLsb'_dotOps {dot m : Mask} {start : Nat} (h : dot.extractLsb' start 8 = 0#8) :
    (withDot dot m).extractLsb' start 8 = m.extractLsb' start 8
      ∧ (withoutDot dot m).extractLsb' start 8 = m.extractLsb' start 8
      ∧ (flipDot dot m).extractLsb' start 8 = m.extractLsb' start 8 := by
  refine ⟨?_, ?_, ?_⟩
  · rw [withDot, BitVec.extractLsb'_or, h, BitVec.or_zero]
  · ext i hi
    have hbit : dot.getLsbD (start + i) = false := by simpa [hi] using congrArg (·.getLsbD i) h
    have hlt : m.getLsbD (start + i) = true → start + i < 16 := BitVec.lt_of_getLsbD
    simpa [withoutDot, hbit] using hlt
  · rw [flipDot, BitVec.extractLsb'_xor, h, BitVec.xor_zero]

/-- SET_MASK, SET_CHAR, SET_DOT and TOGGLE_DOT answer `OK` after one write of digit p. -/
theorem exec_digitWriter {p : Position} {i : Instr} {s t : State}
    (hi : (∃ m, i = .setMask p m) ∨ (∃ c, i = .setChar p c) ∨ (∃ en, i = .setDot p en) ∨ i = .toggleDot p)
    (h : exec i s = .next t) : ∃ m, t = respond .ok noData (writeMask p m s) := by
  rcases hi with ⟨m, rfl⟩ | ⟨c, rfl⟩ | ⟨en, rfl⟩ | rfl <;> cases h <;> exact ⟨_, rfl⟩

/-- SET_DOT and TOGGLE_DOT keep each byte-wide field of digit p in which `DOT_MASK` has no bit. -/
theorem exec_dotCommand_field {p : Position} {i : Instr} {s t : State} {start : Nat}
    (hi : (∃ en, i = .setDot p en) ∨ i = .toggleDot p) (h : exec i s = .next t)
    (hdot : s.params.dotMask.extractLsb' start 8 = 0#8) :
    (readMask t p).extractLsb' start 8 = (readMask s p).extractLsb' start 8 := by
  obtain ⟨hon, hoff, hflip⟩ := extractLsb'_dotOps (m := readMask s p) hdot
  rcases hi with ⟨_ | _, rfl⟩ | rfl <;> cases h
  · simpa using hoff
  · simpa using hon
  · simpa using hflip

/-- Settles O31: the four commands are one `writeMask` and a response, and the dot operations keep the byte without the dot. -/
theorem digitWritesChangeOneDigit : Obligations.DigitWritesChangeOneDigit := by
  intro p i s t hi h
  refine ⟨fun k hl hh => ?_, fun hdot => ⟨fun hlow => ?_, fun hhigh => ?_⟩, ?_⟩
  · obtain ⟨m, rfl⟩ := exec_digitWriter hi h
    exact memRead_writeMask_other p m s k hl hh
  · rw [memRead_addrLow, memRead_addrLow]
    exact exec_dotCommand_field hdot h hlow
  · rw [memRead_addrHigh, memRead_addrHigh]
    exact exec_dotCommand_field hdot h hhigh
  · obtain ⟨m, rfl⟩ := exec_digitWriter hi h
    exact ⟨rfl, rfl, rfl, rfl, rfl, rfl, rfl, rfl⟩

/-! ## Calls of the device (R41, R160, R163) -/

theorem consumeChar_device {c : CodePoint} {s t : State} (h : consumeChar c s = some t) :
    t.devOut = s.devOut ∧ t.devCalls = s.devCalls := by
  rcases consumeChar_cases h with ⟨-, rfl⟩ | ⟨-, -, _, -, rfl⟩ | ⟨-, -, -, _, -, rfl⟩ | ⟨-, -, _, _, -, -, rfl⟩ | ⟨-, _, -, rfl⟩ <;>
    exact ⟨rfl, rfl⟩

/-- A command leaves the Device Writer port and the count of its calls, or it is FLUSH and makes the one call of R160. -/
theorem exec_device {i : Instr} {s t : State} (h : exec i s = .next t) :
    (t.devOut = s.devOut ∧ t.devCalls = s.devCalls)
      ∨ (i = .flush ∧ t.devCalls = s.devCalls + 1 ∧ t.devOut = some (flushCall s)) := by
  cases exec_effect h with
  | txtChar c u hu =>
    obtain ⟨hout, hcalls⟩ := consumeChar_device hu
    exact .inl ⟨hout, hcalls⟩
  | flush r _ => exact .inr ⟨rfl, respondReply_devCalls .., respondReply_devOut ..⟩
  | _ => exact .inl ⟨rfl, rfl⟩

/-- Settles O56: every step begins with the port undriven, and only a completed FLUSH drives it. -/
theorem onlyFlushCallsTheDevice : Obligations.OnlyFlushCallsTheDevice := by
  intro s t h
  rcases step_next_cases h with ⟨-, rfl⟩ | ⟨_, -, rfl⟩ | ⟨_, _, _, -, -, rfl⟩ | ⟨w, rest, i, hs, hi, hexec⟩
  · exact .inl ⟨rfl, rfl⟩
  · exact .inl ⟨rfl, rfl⟩
  · exact .inl ⟨rfl, rfl⟩
  · rcases exec_device hexec with hkept | ⟨rfl, hcalls, hout⟩
    · exact .inl hkept
    · exact .inr ⟨w, rest, hs, hi, hcalls, hout⟩

end Sys2Proof.Machine
end

section
/-! PROOFS. The two directions of the encoding (spec/30_encoding.md R61, R62, R63, R66): decoder and encoder are inverse, and the
words of commands are exactly the legal ones. -/

namespace Sys2Proof

/-! ## From a command to its word and back -/

/-- Settles O1: the fields of an encoded word are the operands that were put there, and the unused ones are 0. -/
theorem decodeEncodeRoundTrip : Obligations.DecodeEncodeRoundTrip := by
  intro i
  cases i with
  | setMask p m => simp [encode, decodeOp, maskOperand_eq, dataHighField_eq]
  | setDot p en => cases en <;> simp [encode, decodeOp]
  | _ => simp [encode, decodeOp]

/-- Settles O5: each word is the encoder's word of its command. -/
theorem writtenOutWordsDecode : Obligations.WrittenOutWordsDecode :=
  ⟨decodeEncodeRoundTrip (.lookup 0x38), decodeEncodeRoundTrip (.chkLookup 0x0A), decodeEncodeRoundTrip (.addrOf 2),
    decodeEncodeRoundTrip (.setMask 1 0x40FF), decodeEncodeRoundTrip (.setChar 0 0x41), decodeEncodeRoundTrip (.setDot 2 true),
    decodeEncodeRoundTrip (.toggleDot 3), decodeEncodeRoundTrip .clear, decodeEncodeRoundTrip .txtStart,
    decodeEncodeRoundTrip (.txtChar 0x2E), decodeEncodeRoundTrip .rawBytes, decodeEncodeRoundTrip .flush,
    decodeEncodeRoundTrip (.posCheck 4)⟩

/-! ## From a word to its command and back -/

/-- A word is the word of the fields it holds: `mkWord_fields` with the fields named. -/
theorem mkWord_eq {w : CmdWord} {op : BitVec 4} {pos : BitVec 2} {en : BitVec 1} {data : BitVec 21}
    (hop : (opField w).toNat = op.toNat) (hpos : posField w = pos) (hen : enField w = en) (hrsv : rsvField w = 0#4)
    (hdata : dataField w = data) : mkWord op pos en 0#4 data = w := by
  rw [← mkWord_fields w, BitVec.eq_of_toNat_eq hop, hpos, hen, hrsv, hdata]

/-- A word decodes by its opcode exactly where its `RSV` is 0. -/
theorem decode_eq_ok {w : CmdWord} {i : Instr} : decode w = .ok i ↔ rsvField w = 0#4 ∧ decodeOp w = .ok i := by
  unfold decode
  split <;> simp [*]

/-- Settles O2: each row of the decoder fixes the opcode, checks every field it does not read, and reads every other field whole. -/
theorem decodedWordIsItsEncoding : Obligations.DecodedWordIsItsEncoding := by
  intro w i h
  obtain ⟨hrsv, h⟩ := decode_eq_ok.mp h
  unfold decodeOp at h
  split at h
  case h_14 => cases h
  all_goals
    rename_i hop
    obtain ⟨hzero, rfl⟩ := requireZero_ok.mp h
    simp only [Bool.and_eq_true, beq_iff_eq] at hzero
  case h_1 | h_2 | h_10 | h_13 =>
    obtain ⟨hpos, hen⟩ := hzero
    exact mkWord_eq hop hpos hen hrsv rfl
  case h_3 | h_7 =>
    obtain ⟨hen, hdata⟩ := hzero
    exact mkWord_eq hop rfl hen hrsv hdata
  case h_4 =>
    obtain ⟨hen, hhigh⟩ := hzero
    rw [dataHighField_eq] at hhigh
    refine mkWord_eq hop rfl hen hrsv ?_
    rw [maskOperand_eq, setWidth_mask_of_dataHigh _ hhigh]
  case h_5 => exact mkWord_eq hop rfl hzero hrsv rfl
  case h_6 => exact mkWord_eq hop rfl (ofBool_enOperand w).symm hrsv hzero
  case h_8 | h_9 | h_11 | h_12 =>
    obtain ⟨⟨hpos, hen⟩, hdata⟩ := hzero
    exact mkWord_eq hop hpos hen hrsv hdata

/-! ## Legal words (R63) -/

/-- The encoder's words are legal: the lemmas of `Laws.LegalEncoding` together. -/
theorem legalWord_encode : ∀ i : Instr, legalWord (encode i) = true
  | .lookup c => Laws.LegalEncoding.lookup c
  | .chkLookup c => Laws.LegalEncoding.chkLookup c
  | .addrOf p => Laws.LegalEncoding.addrOf p
  | .setMask p m => Laws.LegalEncoding.setMask p m
  | .setChar p c => Laws.LegalEncoding.setChar p c
  | .setDot p en => Laws.LegalEncoding.setDot p en
  | .toggleDot p => Laws.LegalEncoding.toggleDot p
  | .clear => Laws.LegalEncoding.clear
  | .txtStart => Laws.LegalEncoding.txtStart
  | .txtChar c => Laws.LegalEncoding.txtChar c
  | .rawBytes => Laws.LegalEncoding.rawBytes
  | .flush => Laws.LegalEncoding.flush
  | .posCheck n => Laws.LegalEncoding.posCheck n

/-- What R62 and R63 ask of a legal word, said of its fields. -/
theorem legalWord_fields {w : CmdWord} (h : legalWord w = true) :
    ∃ u, usedFields (opField w).toNat = some u ∧ rsvField w = 0#4 ∧ (u.pos = false → posField w = 0#2)
      ∧ (u.en = false → enField w = 0#1) ∧ (dataField w).toNat < 2 ^ u.dataBits := by
  rw [← mkWord_fields w, legalWord_mkWord] at h
  cases hu : usedFields (opField w).toNat with
  | none => simp [hu] at h
  | some u =>
    simp only [hu, Bool.and_eq_true, Bool.or_eq_true, decide_eq_true_eq] at h
    obtain ⟨⟨⟨hrsv, hpos⟩, hen⟩, hdata⟩ := h
    refine ⟨u, rfl, BitVec.eq_of_toNat_eq hrsv, fun hu => ?_, fun hu => ?_, hdata⟩
    · exact BitVec.eq_of_toNat_eq (by simpa [hu] using hpos)
    · exact BitVec.eq_of_toNat_eq (by simpa [hu] using hen)

/-- A row with no data bits asks for `DATA` 0. -/
theorem eq_zero_of_toNat_lt {d : BitVec 21} (h : d.toNat < 2 ^ 0) : d = 0#21 :=
  BitVec.eq_of_toNat_eq (by simpa using h)

/-- Every legal word is the word of some command: one row of R62 each. -/
theorem exists_encode_of_legalWord {w : CmdWord} (h : legalWord w = true) : ∃ i, encode i = w := by
  obtain ⟨u, hu, hrsv, hpos, hen, hdata⟩ := legalWord_fields h
  unfold usedFields at hu
  split at hu
  case h_14 => cases hu
  all_goals
    rename_i hop
    cases hu
  case h_1 => exact ⟨.lookup (dataField w), mkWord_eq hop (hpos rfl) (hen rfl) hrsv rfl⟩
  case h_2 => exact ⟨.chkLookup (dataField w), mkWord_eq hop (hpos rfl) (hen rfl) hrsv rfl⟩
  case h_3 => exact ⟨.addrOf (posOperand w), mkWord_eq hop rfl (hen rfl) hrsv (eq_zero_of_toNat_lt hdata)⟩
  case h_4 =>
    refine ⟨.setMask (posOperand w) (maskOperand w), mkWord_eq hop rfl (hen rfl) hrsv ?_⟩
    rw [maskOperand_eq, BitVec.setWidth_setWidth_eq_self hdata]
  case h_5 => exact ⟨.setChar (posOperand w) (dataField w), mkWord_eq hop rfl (hen rfl) hrsv rfl⟩
  case h_6 =>
    exact ⟨.setDot (posOperand w) (enOperand w),
      mkWord_eq hop rfl (ofBool_enOperand w).symm hrsv (eq_zero_of_toNat_lt hdata)⟩
  case h_7 => exact ⟨.toggleDot (posOperand w), mkWord_eq hop rfl (hen rfl) hrsv (eq_zero_of_toNat_lt hdata)⟩
  case h_8 => exact ⟨.clear, mkWord_eq hop (hpos rfl) (hen rfl) hrsv (eq_zero_of_toNat_lt hdata)⟩
  case h_9 => exact ⟨.txtStart, mkWord_eq hop (hpos rfl) (hen rfl) hrsv (eq_zero_of_toNat_lt hdata)⟩
  case h_10 => exact ⟨.txtChar (dataField w), mkWord_eq hop (hpos rfl) (hen rfl) hrsv rfl⟩
  case h_11 => exact ⟨.rawBytes, mkWord_eq hop (hpos rfl) (hen rfl) hrsv (eq_zero_of_toNat_lt hdata)⟩
  case h_12 => exact ⟨.flush, mkWord_eq hop (hpos rfl) (hen rfl) hrsv (eq_zero_of_toNat_lt hdata)⟩
  case h_13 => exact ⟨.posCheck (dataField w), mkWord_eq hop (hpos rfl) (hen rfl) hrsv rfl⟩

/-- Settles O3: the legal words and the words the decoder reads are both the encoder's words. -/
theorem decodeAcceptsExactlyLegalWords : Obligations.DecodeAcceptsExactlyLegalWords := by
  intro w
  constructor
  · intro h
    obtain ⟨i, rfl⟩ := exists_encode_of_legalWord h
    exact ⟨i, decodeEncodeRoundTrip i⟩
  · rintro ⟨i, hi⟩
    rw [← decodedWordIsItsEncoding w i hi]
    exact legalWord_encode i

end Sys2Proof
end

section
/-! PROOFS. What every command word does, legal or not: an illegal word answers `ILLEGAL` (spec/30_encoding.md R63), no word
is refused (R177), and each word that completes drives one response (R64, R65). -/

namespace Sys2Proof.Machine

/-! ## Illegal words (R63) -/

theorem decode_error_of_illegal {w : CmdWord} (h : legalWord w = false) : ∃ e, decode w = .error e := by
  cases hw : decode w with
  | error e => exact ⟨e, rfl⟩
  | ok i => simp [(decodeAcceptsExactlyLegalWords w).mpr ⟨i, hw⟩] at h

theorem step_of_decode_error {s : State} {w : CmdWord} {rest : List HostInput} {e : DecodeError}
    (hs : s.host = .command w :: rest) (he : decode w = .error e) :
    step s = .next (respond .illegal noData (beginStep s)) := by
  simp only [step, hs, he]
  rfl

/-- Settles O4: the decoder rejects the word, so the step is `beginStep` and a response. -/
theorem illegalWordAnswersIllegal : Obligations.IllegalWordAnswersIllegal := by
  intro s w rest hs hw
  obtain ⟨e, he⟩ := decode_error_of_illegal hw
  rw [step_of_decode_error hs he, beginStep_of_host_cons hs]
  rfl

/-! ## How a command can end (R62, R177) -/

theorem execTxtChar_outcome (c : CodePoint) (s : State) :
    (∃ t, execTxtChar c s = .next t) ∨ execTxtChar c s = .fault .cursorOutOfRange := by
  unfold execTxtChar
  split
  · exact .inl ⟨_, rfl⟩
  · exact .inr rfl

theorem execFlush_outcome (s : State) : (∃ t, execFlush s = .next t) ∨ execFlush s = .fault .deviceSilent := by
  unfold execFlush
  split
  · exact .inl ⟨_, rfl⟩
  · exact .inr rfl

/-- A command completes, or it is a TXT_CHAR or a FLUSH that stops with its one fault. -/
theorem exec_outcome (i : Instr) (s : State) :
    (∃ t, exec i s = .next t) ∨ (∃ c, i = .txtChar c ∧ exec i s = .fault .cursorOutOfRange)
      ∨ (i = .flush ∧ exec i s = .fault .deviceSilent) := by
  cases i with
  | chkLookup c =>
    by_cases hc : Mapped c
    · exact .inl ⟨_, execChkLookup_mapped s hc⟩
    · exact .inl ⟨_, execChkLookup_unmapped s hc⟩
  | txtChar c => exact (execTxtChar_outcome c s).imp id fun h => .inl ⟨c, rfl, h⟩
  | flush => exact (execFlush_outcome s).imp id fun h => .inr ⟨rfl, h⟩
  | posCheck n =>
    by_cases hn : validPosition n = true
    · exact .inl ⟨_, execPosCheck_valid s hn⟩
    · exact .inl ⟨_, execPosCheck_invalid s hn⟩
  | _ => exact .inl ⟨_, rfl⟩

/-- Settles O43: of the four kinds of step three complete, and a command ends as `exec_outcome` says. -/
theorem noStepIsRefused : Obligations.NoStepIsRefused := by
  intro s r h
  rcases step_cases s with ⟨-, hstep⟩ | ⟨_, -, hstep⟩ | ⟨_, _, _, -, -, hstep⟩ | ⟨_, _, i, -, -, hstep⟩
  · cases hstep.symm.trans h
  · cases hstep.symm.trans h
  · cases hstep.symm.trans h
  · rcases exec_outcome i (beginStep s) with ⟨t, hexec⟩ | ⟨c, -, hexec⟩ | ⟨-, hexec⟩ <;>
      cases (hstep.trans hexec).symm.trans h

/-! ## The response of a command (R64, R65) -/

theorem respondReply_resp_some (d : DevReply) (s : State) : ∃ r, (respondReply d s).resp = some r := by
  cases d <;> exact ⟨_, rfl⟩

theorem exec_resp_some {i : Instr} {s t : State} (h : exec i s = .next t) : ∃ r, t.resp = some r := by
  cases exec_effect h with
  | flush d _ => exact respondReply_resp_some d _
  | _ => exact ⟨_, rfl⟩

/-- The numbers of the statuses (R65). -/
theorem statusCode_le (st : Status) : (statusCode st).toNat ≤ 4 := by cases st <;> decide

/-- A step that completes either took a word and drives a response, or took none and drives none. -/
theorem step_next_resp {s t : State} (h : step s = .next t) :
    (∃ w rest r, s.host = .command w :: rest ∧ t.resp = some r)
    ∨ ((∀ w rest, s.host ≠ .command w :: rest) ∧ t.resp = none) := by
  rcases step_next_cases h with ⟨hs, rfl⟩ | ⟨rest, hs, rfl⟩ | ⟨w, rest, e, hs, -, rfl⟩ | ⟨w, rest, i, hs, -, hexec⟩
  · exact .inr ⟨by simp [hs], rfl⟩
  · exact .inr ⟨by simp [hs], rfl⟩
  · exact .inl ⟨w, rest, _, hs, rfl⟩
  · obtain ⟨r, hr⟩ := exec_resp_some hexec
    exact .inl ⟨w, rest, r, hs, hr⟩

/-- Settles O59: the two ways of `step_next_resp` exclude each other, and every status has a number up to 4. -/
theorem everyCommandAnswersOnce : Obligations.EveryCommandAnswersOnce := by
  intro s t h
  rcases step_next_resp h with ⟨w, rest, r, hs, hr⟩ | ⟨hs, hr⟩
  · exact ⟨fun _ _ _ => ⟨r, hr, statusCode_le _⟩, fun hnone => absurd hs (hnone w rest)⟩
  · exact ⟨fun w rest hw => absurd hw (hs w rest), fun _ => hr⟩

end Sys2Proof.Machine
end

section
/-! PROOFS. Runs of presented commands: the rule for the first command of a run, and the pseudo-command set_char_flush
(spec/30_encoding.md R69, R174). -/

namespace Sys2Proof.Machine

/-! ## The first command of a run -/

/-- The state as a command finds it: the ports of the step before are undriven (R64). -/
def undrive (s : State) : State := { s with resp := none, devOut := none }

/-- Taking the first presented command leaves the others presented. -/
theorem beginStep_present_cons (i : Instr) (is : List Instr) (s : State) :
    beginStep (present (i :: is) s) = present is (undrive s) := rfl

theorem respondReply_present (r : DevReply) (is : List Instr) (s : State) :
    respondReply r (present is s) = present is (respondReply r s) := by cases r <;> rfl

@[simp] theorem present_cur (is : List Instr) (s : State) : (present is s).cur = s.cur := rfl
@[simp] theorem present_fst (is : List Instr) (s : State) : (present is s).fst = s.fst := rfl

theorem dotStandalone_present (is : List Instr) (s : State) :
    dotStandalone (present is s) = (dotStandalone s).map (present is) := by
  simp only [dotStandalone, Option.map_map]
  rfl

theorem dotFold_present (is : List Instr) (s : State) : dotFold (present is s) = (dotFold s).map (present is) := by
  simp only [dotFold, Option.map_map]
  rfl

theorem dotEscape_present (is : List Instr) (s : State) : dotEscape (present is s) = (dotEscape s).map (present is) := by
  simp only [dotEscape, present_cur]
  cases previousDigit s.cur <;> cases cursorDigit s.cur <;> rfl

theorem writeGlyph_present (c : CodePoint) (is : List Instr) (s : State) :
    writeGlyph c (present is s) = (writeGlyph c s).map (present is) := by
  simp only [writeGlyph, Option.map_map]
  rfl

/-- One character does not look at what is presented after it. -/
theorem consumeChar_present (c : CodePoint) (is : List Instr) (s : State) :
    consumeChar c (present is s) = (consumeChar c s).map (present is) := by
  unfold consumeChar
  rw [apply_ite (Option.map (present is)), apply_ite (Option.map (present is))]
  refine ite_congr rfl (fun _ => rfl) fun _ => ite_congr rfl (fun _ => ?_) fun _ => writeGlyph_present c is s
  rw [present_fst]
  cases s.fst with
  | none => exact dotStandalone_present is s
  | char => exact dotFold_present is s
  | fold => exact dotEscape_present is s

theorem exec_txtChar_of_consumeChar {c : CodePoint} {s t : State} (h : consumeChar c s = some t) :
    exec (.txtChar c) s = .next (respond .ok noData t) := by
  change execTxtChar c s = _
  rw [execTxtChar, h]
  rfl

/-- A command does not look at what is presented after it. -/
theorem exec_present {i : Instr} {s t : State} (is : List Instr) (h : exec i s = .next t) :
    exec i (present is s) = .next (present is t) := by
  cases exec_effect h with
  | mapped c hc => exact execChkLookup_mapped (present is s) hc
  | unmapped c hc => exact execChkLookup_unmapped (present is s) hc
  | txtChar c u hu =>
    have hu' : consumeChar c (present is s) = some (present is u) := by rw [consumeChar_present, hu, Option.map_some]
    exact exec_txtChar_of_consumeChar hu'
  | flush r hr =>
    rw [← respondReply_present]
    exact execFlush_of_devAnswer (s := present is s) hr
  | valid n hn => exact execPosCheck_valid (present is s) hn
  | invalid n hn => exact execPosCheck_invalid (present is s) hn
  | _ => rfl

theorem run_succ_of_step {M : Host.Core} {s t : M.State} (h : M.step s = .next t) (k : Nat) : M.run (k + 1) s = M.run k t := by
  rw [Host.Core.run, h]

theorem runCommands_nil (s : State) : runCommands [] s = .next s := rfl

/-- A run goes on from the state its first command ends in. -/
theorem runCommands_cons {i : Instr} {s t : State} (is : List Instr)
    (h : exec i (undrive s) = .next t) : runCommands (i :: is) s = runCommands is t := by
  have hstep : step (present (i :: is) s) = .next (present is t) := by
    rw [step_of_decode_ok (s := present (i :: is) s) rfl (decodeEncodeRoundTrip i), beginStep_present_cons]
    exact exec_present is h
  exact run_succ_of_step (M := Sys2Proof.core) (s := present (i :: is) s) (t := present is t) hstep is.length

@[simp] theorem undrive_rom (s : State) : (undrive s).rom = s.rom := rfl
@[simp] theorem undrive_params (s : State) : (undrive s).params = s.params := rfl
@[simp] theorem readMask_undrive (s : State) (p : Position) : readMask (undrive s) p = readMask s p := rfl

@[simp] theorem readMask_respondReply (r : DevReply) (s : State) (p : Position) :
    readMask (respondReply r s) p = readMask s p := by cases r <;> rfl

/-! ## set_char_flush (R69, R174) -/

/-- Settles O60: FLUSH meets the state that SET_CHAR left, with the written buffer and the answer still to come, and its
own response is the last one. -/
theorem setCharFlushPropagatesTransportError : Obligations.SetCharFlushPropagatesTransportError := by
  intro p c s e rest hs
  have hset : exec (.setChar p c) (undrive s) = .next (respond .ok noData (writeMask p (glyph s.rom c) (undrive s))) := rfl
  have hanswer : devAnswer (undrive (respond .ok noData (writeMask p (glyph s.rom c) (undrive s)))) = some (.err e) :=
    devAnswer_cons _ _ rest hs
  have hflush : exec .flush _ = .next _ := execFlush_of_devAnswer hanswer
  refine ⟨_, (runCommands_cons [.flush] hset).trans ((runCommands_cons [] hflush).trans (runCommands_nil _)), ?_, fun q => ?_⟩
  · simp [respondReply]
  · simp only [readMask_respondReply, readMask_callDevice, readMask_undrive, readMask_respond, readMask_writeMask, eq_comm]

end Sys2Proof.Machine
end

section
/-! PROOFS. Whole texts (spec/41_dot_folding.md R100 to R111): the machine against a progress without a buffer, the progress against
the layout of `textLayout`, and the pseudo-commands set_text and encode (spec/30_encoding.md R69). -/

namespace Sys2Proof.Machine

/-! ## What a text has written so far (R104 to R109)

The digits a text writes, seen apart from the buffer: they depend on `DOT_MASK`, the ROM and the text alone. -/

/-- The masks of the digits a text has filled, from position 0, and the dot-folding state. -/
structure TextProgress where
  masks : List Mask
  fst : FoldState

/-- The progress before the first character. -/
def TextProgress.start : TextProgress := ⟨[], .none⟩

/-- One more character (R104 to R109). -/
def TextProgress.next (dot : Mask) (rom : Vector Mask 95) (g : TextProgress) (c : CodePoint) : TextProgress :=
  if g.masks.length = 4 then g
  else if c = Config.dotChar then
    match g.fst with
    | .none => ⟨g.masks ++ [dot], .none⟩
    | .char => ⟨g.masks.modify (g.masks.length - 1) (withDot dot), .fold⟩
    | .fold => ⟨g.masks.modify (g.masks.length - 1) (withoutDot dot) ++ [dot], .none⟩
  else ⟨g.masks ++ [glyph rom c], .char⟩

section Next
variable (dot : Mask) (rom : Vector Mask 95) {c : CodePoint} {masks : List Mask} {f : FoldState}

theorem TextProgress.next_full (c : CodePoint) (h : masks.length = 4) : next dot rom ⟨masks, f⟩ c = ⟨masks, f⟩ := if_pos h

theorem TextProgress.next_glyph (h : masks.length ≠ 4) (hc : c ≠ Config.dotChar) :
    next dot rom ⟨masks, f⟩ c = ⟨masks ++ [glyph rom c], .char⟩ := by
  rw [next, if_neg h, if_neg hc]

theorem TextProgress.next_standalone (h : masks.length ≠ 4) :
    next dot rom ⟨masks, .none⟩ Config.dotChar = ⟨masks ++ [dot], .none⟩ := by
  rw [next, if_neg h, if_pos rfl]

theorem TextProgress.next_fold (h : masks.length ≠ 4) :
    next dot rom ⟨masks, .char⟩ Config.dotChar = ⟨masks.modify (masks.length - 1) (withDot dot), .fold⟩ := by
  rw [next, if_neg h, if_pos rfl]

theorem TextProgress.next_escape (h : masks.length ≠ 4) :
    next dot rom ⟨masks, .fold⟩ Config.dotChar
      = ⟨masks.modify (masks.length - 1) (withoutDot dot) ++ [dot], .none⟩ := by
  rw [next, if_neg h, if_pos rfl]

end Next

/-- The state `s` shows the progress `g` over the buffer of `s₀`. -/
structure Shows (s₀ : State) (g : TextProgress) (s : State) : Prop where
  cur : s.cur.toNat = g.masks.length
  fst : s.fst = g.fst
  digit : ∀ p : Position, readMask s p = g.masks.getD p.val (readMask s₀ p)

theorem Shows.congr {s₀ s t : State} {g : TextProgress} (hs : Shows s₀ g s) (hcur : t.cur = s.cur) (hfst : t.fst = s.fst)
    (hdb : t.db = s.db) : Shows s₀ g t where
  cur := hcur ▸ hs.cur
  fst := hfst.trans hs.fst
  digit p := by simpa only [readMask, hdb] using hs.digit p

theorem getD_concat {α : Type} (ms : List α) (m d : α) (i : Nat) :
    (ms ++ [m]).getD i d = if ms.length = i then m else ms.getD i d := by
  grind

theorem getD_modify {α : Type} {ms : List α} {q : Nat} (f : α → α) (d : α) (i : Nat) (hq : q < ms.length) :
    (ms.modify q f).getD i d = if q = i then f (ms.getD i d) else ms.getD i d := by
  grind

/-- One character of the machine is one character of the progress. -/
theorem shows_consumeChar {s₀ s t : State} {g : TextProgress} {c : CodePoint} (hs : Shows s₀ g s)
    (h : consumeChar c s = some t) : Shows s₀ (g.next s.params.dotMask s.rom c) t := by
  obtain ⟨masks, f⟩ := g
  obtain ⟨hcur, hfst, hdigit⟩ := hs
  dsimp only at hcur hfst hdigit
  subst hfst
  rcases consumeChar_cases h with ⟨hfull, rfl⟩ | ⟨rfl, hf, p, hp, rfl⟩ | ⟨rfl, hf, hne, q, hq, rfl⟩
    | ⟨rfl, hf, q, p, hq, hp, rfl⟩ | ⟨hc, p, hp, rfl⟩
  · rw [TextProgress.next_full _ _ _ (by simp [← hcur, hfull])]
    exact ⟨hcur, rfl, hdigit⟩
  · rw [hf, TextProgress.next_standalone _ _ (by omega)]
    refine ⟨by simp [cursor_succ hp]; omega, rfl, fun r => ?_⟩
    rw [getD_concat]
    simp [hdigit, standaloneDot, ← hcur, hp, Fin.ext_iff]
  · have hne4 : s.cur.toNat ≠ 4 := fun h4 => hne (BitVec.eq_of_toNat_eq h4)
    rw [hf, TextProgress.next_fold _ _ (by omega)]
    refine ⟨by simpa using hcur, rfl, fun r => ?_⟩
    rw [getD_modify _ _ _ (by omega), ← hdigit r]
    obtain rfl | hr := eq_or_ne q r
    · simp [← hcur, hq]
    · simp [hr, ← hcur, hq, Fin.val_ne_of_ne hr]
  · rw [hf, TextProgress.next_escape _ _ (by omega)]
    refine ⟨by simp [cursor_succ hp]; omega, rfl, fun r => ?_⟩
    rw [getD_concat, getD_modify _ _ _ (by omega), ← hdigit r]
    obtain rfl | hr := eq_or_ne q r
    · have hpq : p ≠ q := Fin.ne_of_val_ne (by omega)
      simp [hpq, ← hcur, hq]
    · simp [hr, standaloneDot, ← hcur, hp, Fin.ext_iff, show p.val - 1 = q.val by omega, Fin.val_ne_of_ne hr]
  · rw [TextProgress.next_glyph _ _ (by omega) hc]
    refine ⟨by simp [cursor_succ hp]; omega, rfl, fun r => ?_⟩
    rw [getD_concat]
    simp [hdigit, ← hcur, hp, Fin.ext_iff]

/-- From a state that meets R27 every character is consumed: the digits its rule names exist (R104). -/
theorem consumeChar_completes (c : CodePoint) {s : State} (hs : TextInv s) : ∃ t, consumeChar c s = some t := by
  obtain ⟨hcur, hchar, hfold, -⟩ := hs
  by_cases hfull : s.cur = 4#3
  · exact ⟨s, if_pos hfull⟩
  have hlt : s.cur.toNat < 4 := lt_of_le_of_ne hcur fun h4 => hfull (BitVec.eq_of_toNat_eq h4)
  have hp : cursorDigit s.cur = some ⟨s.cur.toNat, hlt⟩ := cursorDigit_eq.mpr rfl
  have hq (h : 1 ≤ s.cur.toNat) : previousDigit s.cur = some ⟨s.cur.toNat - 1, by omega⟩ :=
    previousDigit_eq.mpr (Nat.sub_add_cancel h).symm
  unfold consumeChar
  rw [if_neg hfull]
  split
  · split
    next => exact ⟨_, by rw [dotStandalone, hp]; rfl⟩
    next hf => exact ⟨_, by rw [dotFold, hq (hchar hf).1]; rfl⟩
    next hf => exact ⟨_, by rw [dotEscape, hq (hfold hf).1, hp]⟩
  · exact ⟨_, by rw [writeGlyph, hp]; rfl⟩

/-- Every text completes from a state that meets R27, and ends with its progress shown. -/
theorem runCommands_txtChars (s₀ : State) (cs : List CodePoint) {s : State} {g : TextProgress} (hinv : TextInv s)
    (hs : Shows s₀ g s) :
    ∃ t, runCommands (cs.map .txtChar) s = .next t ∧ TextInv t
      ∧ Shows s₀ (cs.foldl (TextProgress.next s.params.dotMask s.rom) g) t := by
  induction cs generalizing s g with
  | nil => exact ⟨s, runCommands_nil s, hinv, hs⟩
  | cons c cs ih =>
    have hinv' : TextInv (undrive s) := hinv.congr rfl rfl
    have hs' : Shows s₀ g (undrive s) := hs.congr rfl rfl rfl
    obtain ⟨u, hu⟩ := consumeChar_completes c hinv'
    obtain ⟨hrom, hparams⟩ := consumeChar_rom_params hu
    obtain ⟨t, hrun, htinv, ht⟩ := ih (s := respond .ok noData u) ((consumeChar_textInv hinv' hu).congr rfl rfl)
      ((shows_consumeChar hs' hu).congr rfl rfl rfl)
    refine ⟨t, (runCommands_cons _ (exec_txtChar_of_consumeChar hu)).trans hrun, htinv, ?_⟩
    rw [respond_params, respond_rom, hrom, hparams] at ht
    exact ht

/-! ## The layout of a text (R111) -/

/-- A character that is no dot is written the same whatever the dot-folding state is, so what follows a decided dot run is laid out
like a text of its own. -/
theorem foldl_next_glyph (dot : Mask) (rom : Vector Mask 95) (masks : List Mask) (f : FoldState) {c : CodePoint}
    (cs : List CodePoint) (hc : c ≠ Config.dotChar) (hlen : masks.length ≠ 4) :
    (c :: cs).foldl (TextProgress.next dot rom) ⟨masks, f⟩
      = (c :: cs).foldl (TextProgress.next dot rom) ⟨masks, .none⟩ := by
  rw [List.foldl_cons, List.foldl_cons, TextProgress.next_glyph _ _ hlen hc, TextProgress.next_glyph _ _ hlen hc]

theorem foldl_next_full (dot : Mask) (rom : Vector Mask 95) {masks : List Mask} (f : FoldState) (cs : List CodePoint)
    (h : masks.length = 4) : cs.foldl (TextProgress.next dot rom) ⟨masks, f⟩ = ⟨masks, f⟩ := by
  induction cs with
  | nil => rfl
  | cons c cs ih => rw [List.foldl_cons, TextProgress.next_full _ _ _ h, ih]

/-- The glyph of any character but the dot has the dot bit clear (R85). -/
theorem glyph_and_dot {dot : Mask} {rom : Vector Mask 95} (hrom : RomOk dot rom) {c : CodePoint} (hc : c ≠ Config.dotChar) :
    glyph rom c &&& dot = 0#16 := by
  obtain ⟨-, hothers, -⟩ := hrom
  by_cases hm : Mapped c
  · obtain ⟨hlo, hhi⟩ := mapped_iff.mp hm
    have hne : c.toNat ≠ 0x2E := fun h => hc (BitVec.eq_of_toNat_eq h)
    rw [glyph_mapped _ _ hm, romRead_index rom c hm ⟨c.toNat - 0x20, by omega⟩ (by simp; omega)]
    exact hothers _ (by simp; omega)
  · rw [glyph_unmapped _ _ hm, glyph_mapped _ _ (by decide), romRead_index _ _ _ 31 (by decide)]
    exact hothers 31 (by decide)

/-- The escape of R108 restores a mask that had no dot of its own: the dot it clears is the one that was folded. -/
theorem withoutDot_withDot {dot m : Mask} (h : m &&& dot = 0#16) : withoutDot dot (withDot dot m) = m := by
  ext i hi
  have hbit : (m &&& dot)[i] = false := by simp [h]
  simp only [BitVec.getElem_and] at hbit
  simp only [withoutDot, withDot, BitVec.getElem_and, BitVec.getElem_or, BitVec.getElem_not]
  rcases Bool.and_eq_false_iff.mp hbit with hm | hd
  · simp [hm]
  · simp [hd]

theorem modify_concat {α : Type} (ms : List α) (m : α) (f : α → α) :
    (ms ++ [m]).modify ((ms ++ [m]).length - 1) f = ms ++ [f m] := by
  simp [List.modify_eq_take_drop]

/-- The digits of a text from a decided position on are `textLayout`: what comes before is kept, and each case of the layout is one,
two or three characters of the progress. -/
theorem foldl_next_masks {dot : Mask} {rom : Vector Mask 95} (hrom : RomOk dot rom) (n : Nat) (cs : List CodePoint)
    (masks : List Mask) (hlen : masks.length + n = 4) :
    (cs.foldl (TextProgress.next dot rom) ⟨masks, .none⟩).masks = masks ++ textLayout dot rom n cs := by
  fun_induction textLayout dot rom n cs generalizing masks with
  | case1 cs => rw [foldl_next_full _ _ _ _ hlen, List.append_nil]
  | case2 n => rw [List.foldl_nil, List.append_nil]
  | case3 cs =>
    rw [List.foldl_cons, TextProgress.next_standalone _ _ (by omega), foldl_next_full _ _ _ _ (by simp; omega)]
  | case4 c cs hc =>
    rw [List.foldl_cons, TextProgress.next_glyph _ _ (by omega) hc, foldl_next_full _ _ _ _ (by simp; omega)]
  | case5 n cs ih =>
    rw [List.foldl_cons, TextProgress.next_standalone _ _ (by omega), ih _ (by simp; omega), List.append_assoc]
    rfl
  | case6 n c hc => rw [List.foldl_cons, TextProgress.next_glyph _ _ (by omega) hc, List.foldl_nil]
  | case7 n c hc =>
    rw [List.foldl_cons, TextProgress.next_glyph _ _ (by omega) hc, List.foldl_cons,
      TextProgress.next_fold _ _ (by simp; omega), modify_concat, List.foldl_nil]
    rfl
  | case8 n c hc es ih =>
    rw [List.foldl_cons, TextProgress.next_glyph _ _ (by omega) hc, List.foldl_cons,
      TextProgress.next_fold _ _ (by simp; omega), modify_concat, List.foldl_cons,
      TextProgress.next_escape _ _ (by simp; omega), modify_concat, withoutDot_withDot (glyph_and_dot hrom hc),
      ih _ (by simp; omega)]
    simp
  | case9 n c hc e es he ih =>
    rw [List.foldl_cons, TextProgress.next_glyph _ _ (by omega) hc, List.foldl_cons,
      TextProgress.next_fold _ _ (by simp; omega), modify_concat, foldl_next_glyph _ _ _ _ _ he (by simp; omega),
      ih _ (by simp; omega), List.append_assoc]
    rfl
  | case10 n c hc e es he ih =>
    rw [List.foldl_cons, TextProgress.next_glyph _ _ (by omega) hc, foldl_next_glyph _ _ _ _ _ he (by simp; omega),
      ih _ (by simp; omega), List.append_assoc]
    rfl

/-- `set_text` from any state completes and shows the layout of its text over the buffer it found (R103 to R111). -/
theorem runCommands_setText (cs : List CodePoint) {s : State} (hrom : RomOk s.params.dotMask s.rom) :
    ∃ t, runCommands (setTextCommands cs) s = .next t ∧ TextInv t
      ∧ t.cur.toNat = (textLayout s.params.dotMask s.rom 4 cs).length
      ∧ ∀ p : Position, readMask t p = (textLayout s.params.dotMask s.rom 4 cs).getD p.val (readMask s p) := by
  have hstart : exec .txtStart (undrive s) = .next (respond .ok noData (setText 0#3 .none (undrive s))) := rfl
  obtain ⟨t, hrun, hinv, hcur, -, hdigit⟩ := runCommands_txtChars s cs (g := .start)
    (s := respond .ok noData (setText 0#3 .none (undrive s))) (textInv_of_start rfl rfl) ⟨rfl, rfl, fun p => rfl⟩
  have hmasks : (cs.foldl (TextProgress.next s.params.dotMask s.rom) .start).masks = textLayout s.params.dotMask s.rom 4 cs :=
    foldl_next_masks hrom 4 cs [] rfl
  refine ⟨t, (runCommands_cons _ hstart).trans hrun, hinv, ?_, fun p => ?_⟩
  · exact hcur.trans (congrArg List.length hmasks)
  · rw [← hmasks]
    exact hdigit p

/-- Settles O45: `encode` is `set_text` from a cleared buffer. -/
theorem encodeTextShowsTextAlone : Obligations.EncodeTextShowsTextAlone := by
  intro cs s hrom
  have hclear : exec .clear (undrive s) = .next (respond .ok noData (clearBuffer (undrive s))) := rfl
  obtain ⟨t, hrun, -, -, hdigit⟩ := runCommands_setText cs (s := respond .ok noData (clearBuffer (undrive s))) hrom
  refine ⟨t, (runCommands_cons _ hclear).trans hrun, fun p => ?_⟩
  simpa using hdigit p

end Sys2Proof.Machine
end

section
/-! PROOFS. The Glyph ROM (spec/40_glyph_rom.md): the glyph of a character as a word of the ROM, the default table against R85, and
the two lookups (R86, R87, R88). -/

namespace Sys2Proof.Machine

/-! ## The glyph of a character (R67, R82, R83) -/

theorem mapped_of_index {c : CodePoint} {k : Fin 95} (hk : c.toNat = 0x20 + k.val) : Mapped c :=
  mapped_iff.mpr ⟨by omega, by omega⟩

theorem not_mapped_iff {c : CodePoint} : ¬ Mapped c ↔ c.toNat < 0x20 ∨ 0x7E < c.toNat := by
  rw [mapped_iff]
  omega

/-- The glyph of code point 0x20 + k is the word at index k (R28, R82). -/
theorem glyph_index (rom : Vector Mask 95) {c : CodePoint} {k : Fin 95} (hk : c.toNat = 0x20 + k.val) :
    glyph rom c = rom[k.val] := by
  rw [glyph_mapped _ _ (mapped_of_index hk), romRead_index _ _ _ k hk]

/-- The glyph of every unmapped character is the word of '?' (R83). -/
theorem glyph_outside (rom : Vector Mask 95) {c : CodePoint} (h : c.toNat < 0x20 ∨ 0x7E < c.toNat) :
    glyph rom c = rom[31] := by
  rw [glyph_unmapped _ _ (not_mapped_iff.mpr h)]
  exact glyph_index rom (k := 31) rfl

/-! ## The lookups (R86, R87, R88) -/

theorem exec_lookup (c : CodePoint) (s : State) : exec (.lookup c) s = .next (respond .ok (glyph s.rom c) s) := rfl

theorem exec_chkLookup_mapped {c : CodePoint} (s : State) (h : Mapped c) :
    exec (.chkLookup c) s = .next (respond .ok (glyph s.rom c) s) := by
  rw [glyph_mapped _ _ h]
  exact execChkLookup_mapped s h

theorem exec_chkLookup_unmapped {c : CodePoint} (s : State) (h : ¬ Mapped c) :
    exec (.chkLookup c) s = .next (respond .noMapping c s) := execChkLookup_unmapped s h

/-- Settles O18: LOOKUP answers the glyph, which is a word of the ROM on either side of the mapped range's bounds. -/
theorem lookupAnswersGlyph : Obligations.LookupAnswersGlyph := by
  refine ⟨fun c => decodeEncodeRoundTrip (.lookup c), fun c s => ⟨fun k hk => ?_, fun hc => ?_⟩⟩
  · rw [exec_lookup, glyph_index s.rom hk]
    rfl
  · rw [exec_lookup, glyph_outside s.rom hc]
    rfl

/-- Settles O19: inside the mapped range CHK_LOOKUP answers the glyph, outside it answers the character itself. -/
theorem chkLookupAnswersGlyphOrNoMapping : Obligations.ChkLookupAnswersGlyphOrNoMapping := by
  refine ⟨fun c => decodeEncodeRoundTrip (.chkLookup c), fun c s => ⟨fun k hk => ?_, fun hc => ?_⟩⟩
  · rw [exec_chkLookup_mapped s (mapped_of_index hk), glyph_index s.rom hk]
    rfl
  · exact exec_chkLookup_unmapped s (not_mapped_iff.mpr hc)

/-- Settles O20: on mapped characters the two lookups are the same, and on the others CHK_LOOKUP does not answer `OK` and LOOKUP
falls back to the glyph of '?'. -/
theorem lookupLaws : Obligations.LookupLaws := by
  intro c s
  refine ⟨fun hc => ⟨_, exec_chkLookup_mapped s hc⟩, fun hc => ?_, fun t d hexec hresp => ?_⟩
  · rw [exec_lookup, exec_lookup, glyph_unmapped s.rom c hc]
  · by_cases hc : Mapped c
    · rwa [exec_lookup, ← exec_chkLookup_mapped s hc]
    · cases (exec_chkLookup_unmapped s hc).symm.trans hexec
      simp at hresp

/-! ## The default table (R84, R85) -/

/-- Of the 95 words of R84 only that of '.' (index 14) has the dot bit, and it has no other: a finite check of the table. -/
theorem glyphRom_romOk : RomOk Config.params.dotMask glyphRom := by decide

/-- Settles O17: the table passes the check of R85, and reset takes the ROM and the configuration from the defaults. -/
theorem glyphRomTableIsWellFormed : Obligations.GlyphRomTableIsWellFormed :=
  ⟨glyphRom_romOk, rfl, rfl⟩

end Sys2Proof.Machine
end

section
/-! PROOFS. The dot-folding state machine (spec/41_dot_folding.md): the rule of each kind of character (R105 to R109), the frame of
TXT_CHAR (R104), and the laws of whole texts (R110, R111). -/

namespace Sys2Proof.Machine

/-! ## The rule of each kind of character (R105 to R109)

`consumeChar` read forwards, one equation per rule; `consumeChar_cases` reads it backwards. -/

theorem cur_ne_full {cur : BitVec 3} {p : Position} (h : cur.toNat = p.val) : cur ≠ 4#3 := by
  rintro rfl
  exact p.isLt.ne h.symm

/-- The advanced cursor in numbers. -/
theorem cursor_succ_eq {cur : BitVec 3} {p : Position} (h : cur.toNat = p.val) : cur + 1#3 = BitVec.ofNat 3 (p.val + 1) := by
  rw [← cursor_succ h, BitVec.ofNat_toNat, BitVec.setWidth_eq]

section Rules
variable {s : State} {p q : Position}

theorem consumeChar_full (c : CodePoint) (hfull : s.cur = 4#3) : consumeChar c s = some s := if_pos hfull

theorem consumeChar_standalone (hp : s.cur.toNat = p.val) (hf : s.fst = .none) :
    consumeChar Config.dotChar s
      = some (setText (BitVec.ofNat 3 (p.val + 1)) .none (writeMask p s.params.dotMask s)) := by
  rw [consumeChar, if_neg (cur_ne_full hp), if_pos (isDot_eq.mpr rfl), hf, ← cursor_succ_eq hp]
  simp only [dotStandalone, cursorDigit_eq.mpr hp, Option.map_some, standaloneDot]

theorem consumeChar_fold (hfull : s.cur ≠ 4#3) (hq : s.cur.toNat = q.val + 1) (hf : s.fst = .char) :
    consumeChar Config.dotChar s
      = some (setText s.cur .fold (writeMask q (withDot s.params.dotMask (readMask s q)) s)) := by
  rw [consumeChar, if_neg hfull, if_pos (isDot_eq.mpr rfl), hf]
  simp only [dotFold, previousDigit_eq.mpr hq, Option.map_some]

theorem consumeChar_escape (hq : s.cur.toNat = q.val + 1) (hp : s.cur.toNat = p.val) (hf : s.fst = .fold) :
    consumeChar Config.dotChar s
      = some (setText (BitVec.ofNat 3 (p.val + 1)) .none (writeMask p s.params.dotMask
          (writeMask q (withoutDot s.params.dotMask (readMask s q)) s))) := by
  rw [consumeChar, if_neg (cur_ne_full hp), if_pos (isDot_eq.mpr rfl), hf, ← cursor_succ_eq hp]
  simp only [dotEscape, previousDigit_eq.mpr hq, cursorDigit_eq.mpr hp, standaloneDot]

theorem consumeChar_glyph {c : CodePoint} (hc : c ≠ Config.dotChar) (hp : s.cur.toNat = p.val) :
    consumeChar c s = some (setText (BitVec.ofNat 3 (p.val + 1)) .char (writeMask p (glyph s.rom c) s)) := by
  rw [consumeChar, if_neg (cur_ne_full hp), if_neg (mt isDot_eq.mp hc), ← cursor_succ_eq hp]
  simp only [writeGlyph, cursorDigit_eq.mpr hp, Option.map_some]

end Rules

/-- Settles O35: the word is the encoder's, and TXT_START writes the two registers and answers. -/
theorem txtStartResetsEncoder : Obligations.TxtStartResetsEncoder :=
  ⟨decodeEncodeRoundTrip .txtStart, fun _ => rfl⟩

/-- Settles O36: the full buffer is looked at before the character (R105). -/
theorem txtCharDiscardsWhenFull : Obligations.TxtCharDiscardsWhenFull :=
  fun c _ hfull => exec_txtChar_of_consumeChar (consumeChar_full c hfull)

/-- Settles O37, by the rule of a dot with no foldable predecessor. -/
theorem txtCharWritesStandaloneDot : Obligations.TxtCharWritesStandaloneDot :=
  fun _ _ hp hf => exec_txtChar_of_consumeChar (consumeChar_standalone hp hf)

/-- Settles O38: `CUR = q + 1` names a digit too, so the buffer is not full and the dot folds. -/
theorem txtCharFoldsDot : Obligations.TxtCharFoldsDot := by
  intro q s hlt hq hf
  have hfull : s.cur ≠ 4#3 := cur_ne_full (p := ⟨q.val + 1, by omega⟩) hq
  exact exec_txtChar_of_consumeChar (consumeChar_fold hfull hq hf)

/-- Settles O39, by the rule of the second dot: q is the digit before `CUR` and p the digit at it. -/
theorem txtCharEscapesSecondDot : Obligations.TxtCharEscapesSecondDot :=
  fun _ _ _ hqp hp hf => exec_txtChar_of_consumeChar (consumeChar_escape (hp.trans hqp) hp hf)

/-- Settles O40: the glyph written is the character's word of the ROM, or the word of '?'. -/
theorem txtCharWritesGlyph : Obligations.TxtCharWritesGlyph := by
  intro c p s hc hp
  have hexec := exec_txtChar_of_consumeChar (consumeChar_glyph hc hp)
  refine ⟨fun k hk => ?_, fun hout => ?_⟩
  · rw [hexec, glyph_index s.rom hk]
    rfl
  · rw [hexec, glyph_outside s.rom hout]
    rfl

/-! ## The frame of TXT_CHAR (R104) -/

theorem consumeChar_sameOutside {c : CodePoint} {s t : State} (h : consumeChar c s = some t) : SameOutside s t := by
  rcases consumeChar_cases h with ⟨-, rfl⟩ | ⟨-, -, _, -, rfl⟩ | ⟨-, -, -, _, -, rfl⟩ | ⟨-, -, _, _, -, -, rfl⟩ | ⟨-, _, -, rfl⟩ <;>
    exact ⟨rfl, rfl, rfl, rfl, rfl⟩

/-- The digits a character may write are the one at `CUR` and the one before it. -/
theorem consumeChar_readMask_other {c : CodePoint} {s t : State} (h : consumeChar c s = some t) {r : Position}
    (hcur : r.val ≠ s.cur.toNat) (hprev : r.val + 1 ≠ s.cur.toNat) : readMask t r = readMask s r := by
  have at_cursor {p : Position} (hp : s.cur.toNat = p.val) : p ≠ r := fun hpr => hcur (hpr ▸ hp.symm)
  have before_cursor {q : Position} (hq : s.cur.toNat = q.val + 1) : q ≠ r := fun hqr => hprev (hqr ▸ hq.symm)
  rcases consumeChar_cases h with ⟨-, rfl⟩ | ⟨-, -, p, hp, rfl⟩ | ⟨-, -, -, q, hq, rfl⟩ | ⟨-, -, q, p, hq, hp, rfl⟩ | ⟨-, p, hp, rfl⟩
  · rfl
  · simp [at_cursor hp]
  · simp [before_cursor hq]
  · simp [at_cursor hp, before_cursor hq]
  · simp [at_cursor hp]

/-- Settles O41: R27 gives every rule its digits, and the rules write `DB`, `CUR` and `FST` alone. -/
theorem txtCharAlwaysCompletes : Obligations.TxtCharAlwaysCompletes := by
  refine ⟨fun c => decodeEncodeRoundTrip (.txtChar c), fun c s hinv => ?_⟩
  obtain ⟨u, hu⟩ := consumeChar_completes c hinv
  obtain ⟨hrom, -⟩ := consumeChar_rom_params hu
  have houtside : SameOutside s u := consumeChar_sameOutside hu
  exact ⟨respond .ok noData u, exec_txtChar_of_consumeChar hu, rfl, (consumeChar_textInv hinv hu).congr rfl rfl, hrom,
    houtside, fun _ hcur hprev => consumeChar_readMask_other hu hcur hprev⟩

/-! ## What a run of set_text leaves (R69, R101) -/

/-- What every command of a run completes from and re-establishes, the run completes with. -/
theorem runCommands_invariant {P : State → Prop} {is : List Instr}
    (hstep : ∀ i ∈ is, ∀ s, P s → ∃ t, exec i (undrive s) = .next t ∧ P t) {s : State} (hs : P s) :
    ∃ t, runCommands is s = .next t ∧ P t := by
  induction is generalizing s with
  | nil => exact ⟨s, runCommands_nil s, hs⟩
  | cons i is ih =>
    obtain ⟨u, hexec, hu⟩ := hstep i List.mem_cons_self s hs
    obtain ⟨t, hrun, ht⟩ := ih (fun j hj => hstep j (List.mem_cons_of_mem i hj)) hu
    exact ⟨t, (runCommands_cons is hexec).trans hrun, ht⟩

/-- Where a text started at `s` stands: the last answer was `OK`, and nothing but `DB`, `CUR` and `FST` has changed. -/
structure InText (s t : State) : Prop where
  inv : TextInv t
  rom : t.rom = s.rom
  outside : SameOutside (undrive s) t
  resp : t.resp = some ⟨.ok, 0#64⟩

theorem InText.txtChar {s t : State} (ht : InText s t) (c : CodePoint) :
    ∃ u, exec (.txtChar c) (undrive t) = .next u ∧ InText s u := by
  obtain ⟨hinv, hrom, ⟨hparams, hhost, hans, hcalls, -⟩, -⟩ := ht
  obtain ⟨-, hcompletes⟩ := txtCharAlwaysCompletes
  obtain ⟨u, hexec, hresp, huinv, hurom, ⟨huparams, huhost, huans, hucalls, huout⟩, -⟩ :=
    hcompletes c (undrive t) (hinv.congr rfl rfl)
  exact ⟨u, hexec, huinv, hurom.trans hrom,
    ⟨huparams.trans hparams, huhost.trans hhost, huans.trans hans, hucalls.trans hcalls, huout⟩, hresp⟩

/-- The state in which the first character of a text is consumed. -/
def textStarted (s : State) : State := respond .ok noData (setText 0#3 .none (undrive s))

theorem textStarted_textInv (s : State) : TextInv (textStarted s) := textInv_of_start rfl rfl

theorem runCommands_setTextCommands (cs : List CodePoint) (s : State) :
    runCommands (setTextCommands cs) s = runCommands (cs.map .txtChar) (textStarted s) :=
  runCommands_cons (i := .txtStart) _ rfl

theorem runCommands_setText_inText (cs : List CodePoint) (s : State) :
    ∃ t, runCommands (setTextCommands cs) s = .next t ∧ InText s t := by
  rw [runCommands_setTextCommands]
  refine runCommands_invariant (fun i hi t ht => ?_) ⟨textStarted_textInv s, rfl, ⟨rfl, rfl, rfl, rfl, rfl⟩, rfl⟩
  obtain ⟨c, -, rfl⟩ := List.mem_map.mp hi
  exact ht.txtChar c

/-- The progress of a whole text. -/
def TextProgress.ofText (dot : Mask) (rom : Vector Mask 95) (cs : List CodePoint) : TextProgress :=
  cs.foldl (next dot rom) .start

/-- Every text completes, under any ROM, and shows its progress over the buffer it found. -/
theorem runCommands_setText_shows (cs : List CodePoint) (s : State) :
    ∃ t, runCommands (setTextCommands cs) s = .next t ∧ Shows s (.ofText s.params.dotMask s.rom cs) t := by
  rw [runCommands_setTextCommands]
  obtain ⟨t, hrun, -, ht⟩ := runCommands_txtChars s cs (g := .start) (textStarted_textInv s) ⟨rfl, rfl, fun _ => rfl⟩
  exact ⟨t, hrun, ht⟩

section Ran
variable {cs : List CodePoint} {s t : State}

theorem inText_of_runCommands (h : runCommands (setTextCommands cs) s = .next t) : InText s t := by
  obtain ⟨u, hrun, hu⟩ := runCommands_setText_inText cs s
  cases hrun.symm.trans h
  exact hu

theorem shows_of_runCommands (h : runCommands (setTextCommands cs) s = .next t) :
    Shows s (.ofText s.params.dotMask s.rom cs) t := by
  obtain ⟨u, hrun, hu⟩ := runCommands_setText_shows cs s
  cases hrun.symm.trans h
  exact hu

end Ran

/-- Settles O44: the digits are those of `runCommands_setText`, and the rest is the frame of a text. -/
theorem setTextMatchesLayout : Obligations.SetTextMatchesLayout := by
  intro cs s hrom
  obtain ⟨t, hrun, hinv, hcur, hdigit⟩ := runCommands_setText cs hrom
  obtain ⟨-, htrom, ⟨hparams, hhost, -, hcalls, -⟩, hresp⟩ := inText_of_runCommands hrun
  exact ⟨t, hrun, hdigit, hcur, htrom, hparams, hresp, hinv, hhost, hcalls⟩

/-! ## The laws of R111 (a), (b), (c) -/

section ShowsLaws
variable {s₀ s t : State} {g : TextProgress}

/-- A digit the progress has reached does not depend on the buffer under it. -/
theorem Shows.digit_below (hs : Shows s₀ g s) {p : Position} (hp : p.val < s.cur.toNat) :
    readMask s p = g.masks[p.val]'(hs.cur ▸ hp) := by
  rw [hs.digit p, List.getD_eq_getElem _ _ (hs.cur ▸ hp)]

/-- A digit the progress has not reached is that of the buffer under it. -/
theorem Shows.digit_from (hs : Shows s₀ g s) {p : Position} (hp : s.cur.toNat ≤ p.val) : readMask s p = readMask s₀ p := by
  rw [hs.digit p, List.getD_eq_default _ _ (hs.cur ▸ hp)]

/-- A progress over a buffer determines the buffer, `CUR` and `FST` that show it. -/
theorem Shows.unique (hs : Shows s₀ g s) (ht : Shows s₀ g t) : t.db = s.db ∧ t.cur = s.cur ∧ t.fst = s.fst :=
  ⟨db_ext fun p => (ht.digit p).trans (hs.digit p).symm, BitVec.eq_of_toNat_eq (ht.cur.trans hs.cur.symm),
    ht.fst.trans hs.fst.symm⟩

/-- Laying a progress over the buffer that already shows it changes nothing. -/
theorem Shows.self (hs : Shows s₀ g s) : Shows s g s where
  cur := hs.cur
  fst := hs.fst
  digit p := by
    obtain hp | hp := lt_or_ge p.val s.cur.toNat
    · rw [hs.digit_below hp, List.getD_eq_getElem _ _ (hs.cur ▸ hp)]
    · rw [List.getD_eq_default _ _ (hs.cur ▸ hp)]

end ShowsLaws

/-- Settles O46: both states show one progress, since it depends on the ROM, `DOT_MASK` and the text alone. -/
theorem textWritesDoNotDependOnPriorBuffer : Obligations.TextWritesDoNotDependOnPriorBuffer := by
  intro cs s s' t t' hrom hdot hrun hrun'
  have ht := shows_of_runCommands hrun
  have ht' := shows_of_runCommands hrun'
  rw [← hrom, ← hdot] at ht'
  have hcur : t.cur = t'.cur := BitVec.eq_of_toNat_eq (ht.cur.trans ht'.cur.symm)
  refine ⟨hcur, ht.fst.trans ht'.fst.symm, fun p hp => ?_, fun p hp => ⟨ht.digit_from hp, ht'.digit_from (hcur ▸ hp)⟩⟩
  rw [ht.digit_below hp, ht'.digit_below (hcur ▸ hp)]

/-- What follows a text that has filled the buffer adds nothing to its progress. -/
theorem TextProgress.ofText_append_of_full {dot : Mask} {rom : Vector Mask 95} {cs : List CodePoint}
    (h : (ofText dot rom cs).masks.length = 4) (more : List CodePoint) : ofText dot rom (cs ++ more) = ofText dot rom cs := by
  rw [ofText, List.foldl_append]
  exact foldl_next_full dot rom _ more h

/-- Settles O47: both texts show one progress over one buffer. -/
theorem textIsTruncatedWhenFull : Obligations.TextIsTruncatedWhenFull := by
  intro cs more s t hrun hfull
  have ht := shows_of_runCommands hrun
  obtain ⟨u, hrun', hu⟩ := runCommands_setText_shows (cs ++ more) s
  rw [TextProgress.ofText_append_of_full (by rw [← ht.cur, hfull]; rfl)] at hu
  exact ⟨u, hrun', ht.unique hu⟩

/-- Settles O48: the second run lays the same progress over a buffer that shows it. -/
theorem setTextIsIdempotent : Obligations.SetTextIsIdempotent := by
  intro cs s t hrun
  have ht := shows_of_runCommands hrun
  obtain ⟨-, hrom, ⟨hparams, -⟩, -⟩ := inText_of_runCommands hrun
  obtain ⟨u, hrun', hu⟩ := runCommands_setText_shows cs t
  rw [hrom, hparams] at hu
  exact ⟨u, hrun', ht.self.unique hu⟩

/-! ## How many positions a text takes (R111 (d)) -/

/-- From any progress a text fills the positions it takes, as far as there are any; only `FST = CHAR` says that the character before
was a non-dot to fold on. -/
theorem length_foldl_next (dot : Mask) (rom : Vector Mask 95) (cs : List CodePoint) (masks : List Mask) (f : FoldState)
    (hlen : masks.length ≤ 4) :
    (cs.foldl (TextProgress.next dot rom) ⟨masks, f⟩).masks.length
      = min 4 (masks.length + positionsTaken (decide (f = .char)) cs) := by
  induction cs generalizing masks f with
  | nil => simpa [positionsTaken] using hlen
  | cons c cs ih =>
    by_cases hfull : masks.length = 4
    · simp [foldl_next_full dot rom f _ hfull, hfull]
    by_cases hc : c = Config.dotChar
    · subst hc
      cases f with
      | none =>
        rw [List.foldl_cons, TextProgress.next_standalone _ _ hfull, ih _ _ (by simp; omega)]
        simp [positionsTaken, Nat.add_assoc]
      | char =>
        rw [List.foldl_cons, TextProgress.next_fold _ _ hfull, ih _ _ (by simpa using hlen)]
        simp [positionsTaken]
      | fold =>
        rw [List.foldl_cons, TextProgress.next_escape _ _ hfull, ih _ _ (by simp; omega)]
        simp [positionsTaken, Nat.add_assoc]
    · rw [List.foldl_cons, TextProgress.next_glyph _ _ hfull hc, ih _ _ (by simp; omega)]
      simp [positionsTaken, hc, Nat.add_assoc]

/-- Settles O49: `CUR` counts the digits of the progress. -/
theorem textTakesCountedPositions : Obligations.TextTakesCountedPositions := by
  intro cs s t hrun
  calc t.cur.toNat
      = (cs.foldl (TextProgress.next s.params.dotMask s.rom) ⟨[], .none⟩).masks.length := (shows_of_runCommands hrun).cur
    _ = min 4 (0 + positionsTaken false cs) := length_foldl_next s.params.dotMask s.rom cs [] .none (Nat.zero_le 4)
    _ = min 4 (positionsTaken false cs) := by rw [Nat.zero_add]

end Sys2Proof.Machine
end

section
/-! PROOFS. The display buffer commands (spec/42_display_buffer.md R131 to R141): the digit a command writes, the dot operations on a
mask, the mask and byte views of the wire word, and what FLUSH sends compared with RAW_BYTES (R139, R160). -/

namespace Sys2Proof.Machine

/-! ## The operands as fields (R66) -/

/-- A position's number fits the `POS` field. -/
theorem ofNat_position (p : Position) : BitVec.ofNat 2 p.val = posBits p :=
  BitVec.eq_of_toNat_eq (Nat.mod_eq_of_lt p.isLt)

/-- The `DATA` field of a mask, its five high bits 0. -/
theorem zero_append_mask (m : Mask) : 0#5 ++ m = m.setWidth 21 := by
  rw [BitVec.setWidth_eq_append (by decide)]
  rfl

theorem validPosition_iff {n : PosInt} : validPosition n = true ↔ n.toNat < 4 := decide_eq_true_iff

/-- The answer of ADDR_OF as a number: a finite check of the four positions (R133). -/
theorem addrPair_setWidth (p : Position) :
    (addrPair p).setWidth 64 = BitVec.ofNat 64 (2 * p.val + 256 * (2 * p.val + 1)) := by
  revert p
  decide

/-- The byte pairs of the positions follow each other in order (R131). -/
theorem addr_lt_addr {p q : Position} (h : p < q) : (addrLow p).val < (addrHigh p).val ∧ (addrHigh p).val < (addrLow q).val := by
  rw [Fin.lt_def] at h
  simp only [addrLow, addrHigh]
  omega

/-! ## One digit written (R132) -/

/-- The last write of a digit is the one that counts. -/
theorem writeMask_writeMask (p : Position) (m m' : Mask) (s : State) : writeMask p m' (writeMask p m s) = writeMask p m' s := by
  simp [writeMask]

/-- Settles O30: the low byte is written beside the old high byte, which the second write replaces. -/
theorem maskWriteIsTwoByteWrites : Obligations.MaskWriteIsTwoByteWrites := by
  intro p m s
  change writeMask p m s = memWrite (addrHigh p) (highByte m) (memWrite (addrLow p) (lowByte m) s)
  rw [memWrite_addrHigh, memWrite_addrLow, readMask_writeMask, if_pos rfl, lowByte_maskOfBytes, writeMask_writeMask,
    maskOfBytes_bytes]

/-! ## The dot bit of a mask (R136, R137) -/

section DotBit
variable (dot m : Mask)

theorem withDot_nonDot : withDot dot m &&& ~~~dot = m &&& ~~~dot := by
  rw [withDot, BitVec.and_or_distrib_right, BitVec.and_not_self]
  exact BitVec.or_zero

theorem withDot_dot : withDot dot m &&& dot = dot := by
  ext i hi
  cases hd : dot[i] <;> simp [withDot, hd]

theorem withoutDot_nonDot : withoutDot dot m &&& ~~~dot = m &&& ~~~dot := by
  rw [withoutDot, BitVec.and_assoc, BitVec.and_self]

theorem withoutDot_dot : withoutDot dot m &&& dot = 0#16 := by
  rw [withoutDot, BitVec.and_assoc, BitVec.not_and_self]
  exact BitVec.and_zero

theorem flipDot_nonDot : flipDot dot m &&& ~~~dot = m &&& ~~~dot := by
  ext i hi
  cases hd : dot[i] <;> simp [flipDot, hd]

theorem flipDot_dot : flipDot dot m &&& dot = (m &&& dot) ^^^ dot := by
  ext i hi
  cases hd : dot[i] <;> simp [flipDot, hd]

theorem flipDot_flipDot : flipDot dot (flipDot dot m) = m := by
  rw [flipDot, flipDot, BitVec.xor_assoc, BitVec.xor_self, BitVec.xor_zero]

end DotBit

/-! ## SET_DOT and TOGGLE_DOT (R136, R137, R141) -/

theorem exec_setDot_readMask {p : Position} {en : Bool} {s t : State} (h : exec (.setDot p en) s = .next t) (q : Position) :
    readMask t q =
      if p = q then if en then withDot s.params.dotMask (readMask s p) else withoutDot s.params.dotMask (readMask s p)
      else readMask s q := by
  cases h
  exact readMask_writeMask ..

theorem exec_toggleDot_readMask {p : Position} {s t : State} (h : exec (.toggleDot p) s = .next t) (q : Position) :
    readMask t q = if p = q then flipDot s.params.dotMask (readMask s p) else readMask s q := by
  cases h
  exact readMask_writeMask ..

/-- Settles O33: on digit p the commands are `withDot`, `withoutDot` and `flipDot`, which keep every bit but the dot's. -/
theorem dotCommandsKeepNonDotBits : Obligations.DotCommandsKeepNonDotBits := by
  refine fun p s t => ⟨fun en h => ?_, fun h => ?_⟩
  · have hother : ∀ q, q ≠ p → readMask t q = readMask s q :=
      fun q hq => (exec_setDot_readMask h q).trans (if_neg hq.symm)
    rw [exec_setDot_readMask h p, if_pos rfl]
    cases en with
    | true => exact ⟨withDot_nonDot _ _, withDot_dot _ _, hother⟩
    | false => exact ⟨withoutDot_nonDot _ _, withoutDot_dot _ _, hother⟩
  · have hother : ∀ q, q ≠ p → readMask t q = readMask s q :=
      fun q hq => (exec_toggleDot_readMask h q).trans (if_neg hq.symm)
    rw [exec_toggleDot_readMask h p, if_pos rfl]
    exact ⟨flipDot_nonDot _ _, flipDot_dot _ _, hother⟩

/-- Settles O24: for each value of en the command is one write of digit p, and R6's `DOT_MASK` is the number 2 ^ 14. -/
theorem setDotWritesDotBit : Obligations.SetDotWritesDotBit := by
  refine ⟨fun p en => ?_, by decide, fun p s => ⟨rfl, rfl⟩⟩
  rw [ofNat_position]
  exact decodeEncodeRoundTrip (.setDot p en)

/-- Settles O25: two flips of one bit cancel, and the other positions are left by both commands. -/
theorem toggleDotFlipsDotBit : Obligations.ToggleDotFlipsDotBit := by
  refine ⟨fun p => ?_, fun p s => rfl, fun p s t u hst htu => db_ext fun q => ?_⟩
  · rw [ofNat_position]
    exact decodeEncodeRoundTrip (.toggleDot p)
  · obtain ⟨-, hparams⟩ := exec_rom_params hst
    rw [exec_toggleDot_readMask htu, exec_toggleDot_readMask hst p, exec_toggleDot_readMask hst q, hparams, if_pos rfl,
      flipDot_flipDot]
    split
    · next hq => rw [hq]
    · rfl

/-! ## SET_MASK, SET_CHAR and CLEAR (R134, R135, R138) -/

/-- Settles O22: the command is one write of digit p. -/
theorem setMaskWritesMask : Obligations.SetMaskWritesMask := by
  refine ⟨fun p m => ?_, fun p m s => rfl⟩
  rw [ofNat_position, zero_append_mask]
  exact decodeEncodeRoundTrip (.setMask p m)

theorem exec_setChar (p : Position) (c : CodePoint) (s : State) :
    exec (.setChar p c) s = .next (respond .ok noData (writeMask p (glyph s.rom c) s)) := rfl

/-- Settles O23: SET_CHAR writes the glyph, which is a word of the ROM on either side of the mapped range's bounds. -/
theorem setCharWritesGlyph : Obligations.SetCharWritesGlyph := by
  refine ⟨fun p c => ?_, fun p c s => ⟨fun k hk => ?_, fun hc => ?_⟩⟩
  · rw [ofNat_position]
    exact decodeEncodeRoundTrip (.setChar p c)
  · rw [exec_setChar, glyph_index s.rom hk]
    rfl
  · rw [exec_setChar, glyph_outside s.rom hc]
    rfl

/-- Settles O26: CLEAR is `clearBuffer` and a response, which write the buffer and the response port alone. -/
theorem clearZeroesBuffer : Obligations.ClearZeroesBuffer :=
  ⟨decodeEncodeRoundTrip .clear, fun s =>
    ⟨respond .ok noData (clearBuffer s), rfl, fun p => readMask_clearBuffer p s, rfl, rfl, rfl, ⟨rfl, rfl, rfl, rfl, rfl⟩, rfl⟩⟩

/-! ## ADDR_OF and POS_CHECK (R133, R140) -/

/-- Settles O21: the answer and the order of the byte pairs are facts about the four positions. -/
theorem addrOfAnswersBytePair : Obligations.AddrOfAnswersBytePair := by
  refine ⟨fun p => ?_, fun p s => ?_, fun p q hpq => addr_lt_addr hpq⟩
  · rw [ofNat_position]
    exact decodeEncodeRoundTrip (.addrOf p)
  · rw [← addrPair_setWidth]
    rfl

/-- Settles O28: the check of the command is `n < 4`, and both answers carry n. -/
theorem posCheckAnswersPositionOrInvalid : Obligations.PosCheckAnswersPositionOrInvalid := by
  refine ⟨fun n => decodeEncodeRoundTrip (.posCheck n), fun n s => ⟨fun hn => ?_, fun hn => ?_⟩⟩
  · exact execPosCheck_valid s (validPosition_iff.mpr hn)
  · exact execPosCheck_invalid s (mt validPosition_iff.mp (Nat.not_lt.mpr hn))

/-! ## RAW_BYTES and FLUSH (R139, R160) -/

/-- RAW_BYTES answers the wire word: it is 64 bits wide already. -/
theorem exec_rawBytes (s : State) : exec .rawBytes s = .next { s with resp := some ⟨.ok, wireWord s⟩ } := by
  change succeed (wireWord s) s = _
  rw [succeed_eq, respond, BitVec.setWidth_eq]

/-- The wire word is the four masks, digit 0 lowest (R139): cut off at each mask, its fields of 16 bits are those of
`extractLsb'_wireWord_mask`. -/
theorem wireWord_eq_masks (s : State) :
    wireWord s = readMask s 3 ++ readMask s 2 ++ readMask s 1 ++ readMask s 0 := by
  have hcut : ∀ start len : Nat, (wireWord s).extractLsb' start (len + 16)
      = (wireWord s).extractLsb' (start + 16) len ++ (wireWord s).extractLsb' start 16 :=
    fun start len => (BitVec.extractLsb'_append_extractLsb'_eq_extractLsb' rfl).symm
  calc wireWord s
      = (wireWord s).extractLsb' 0 64 := BitVec.extractLsb'_eq_self.symm
    _ = (wireWord s).extractLsb' 48 16 ++ (wireWord s).extractLsb' 32 16 ++ (wireWord s).extractLsb' 16 16
          ++ (wireWord s).extractLsb' 0 16 := by rw [hcut 0 48, hcut 16 32, hcut 32 16]
    _ = readMask s 3 ++ readMask s 2 ++ readMask s 1 ++ readMask s 0 := by
        rw [← extractLsb'_wireWord_mask s 3, ← extractLsb'_wireWord_mask s 2, ← extractLsb'_wireWord_mask s 1,
          ← extractLsb'_wireWord_mask s 0]
        rfl

/-- Settles O27: the answer is the wire word, read by masks and by bytes. -/
theorem rawBytesAnswersWireOrder : Obligations.RawBytesAnswersWireOrder :=
  ⟨decodeEncodeRoundTrip .rawBytes, fun s =>
    ⟨wireWord s, exec_rawBytes s, wireWord_eq_masks s, extractLsb'_wireWord_byte s⟩⟩

theorem getElem_wireBytes (s : State) (k : ByteAddr) : (wireBytes s)[k.val] = memRead s k := by
  fin_cases k <;> rfl

/-- A completed FLUSH has made its one call, whatever the device answered (R160). -/
theorem exec_flush_devOut {s t : State} (h : exec .flush s = .next t) : t.devOut = some (flushCall s) := by
  cases exec_effect h with
  | flush r _ => exact respondReply_devOut ..

/-- The call of FLUSH, cell by cell, in bytes of the wire word (R139, R160). -/
theorem devCells_flushCall (s : State) :
    devCells (flushCall s) =
      (List.finRange 8).map fun k => (s.params.baseAddr + k.val, (wireWord s).extractLsb' (8 * k.val) 8) := by
  refine List.map_congr_left fun k _ => ?_
  rw [extractLsb'_wireWord_byte s k, ← getElem_wireBytes s k]
  rfl

/-- Settles O55: the call's bytes and the answer's bytes are both those of the byte space. -/
theorem flushSendsRawBytesFromBase : Obligations.FlushSendsRawBytesFromBase := by
  intro s t u hraw hflush
  cases (exec_rawBytes s).symm.trans hraw
  exact ⟨flushCall s, _, exec_flush_devOut hflush, rfl, rfl, devCells_flushCall s⟩

end Sys2Proof.Machine
end

section
/-! PROOFS. FLUSH and the Device Writer port (spec/43_device_port.md R160 to R165): the one equation of FLUSH per answer of the
device, two FLUSHes in a row, and the only way the block stops. -/

namespace Sys2Proof.Machine

/-! ## FLUSH, by the answer of the device (R160, R164, R165) -/

/-- The state after a FLUSH that answers `r`: one answer of the device used up, one call counted and shown on the port (R160, R163). -/
def flushed (r : Response) (s : State) : State :=
  { s with devAnswers := s.devAnswers.tail, devCalls := s.devCalls + 1, devOut := some (flushCall s), resp := some r }

section ByAnswer
variable {s : State}

theorem exec_flush_ok (h : devAnswer s = some .ok) : exec .flush s = .next (flushed ⟨.ok, 0#64⟩ s) :=
  execFlush_of_devAnswer h

/-- The response port is as wide as the device's e, which passes unchanged (R164). -/
theorem exec_flush_err {e : TErr} (h : devAnswer s = some (.err e)) :
    exec .flush s = .next (flushed ⟨.transportError, e⟩ s) := by
  calc exec .flush s
      = .next (respond .transportError e (callDevice (flushCall s) s)) := execFlush_of_devAnswer h
    _ = .next (flushed ⟨.transportError, e⟩ s) := by rw [respond, BitVec.setWidth_eq]; rfl

theorem exec_flush_silent (h : devAnswer s = none) : exec .flush s = .fault .deviceSilent := by
  change execFlush s = _
  rw [execFlush, h]

/-- A written-down answer is the one used up. -/
theorem flushed_of_cons {a : Option DevReply} {rest : List (Option DevReply)} (r : Response)
    (hs : s.devAnswers = a :: rest) :
    flushed r s = { s with
      devAnswers := rest, devCalls := s.devCalls + 1, devOut := some ⟨s.params.baseAddr, wireBytes s⟩, resp := some r } := by
  rw [flushed, hs, List.tail_cons, flushCall]

/-- Where no answer is written down there is none to use up. -/
theorem flushed_of_nil (r : Response) (hs : s.devAnswers = []) :
    flushed r s = { s with
      devCalls := s.devCalls + 1, devOut := some ⟨s.params.baseAddr, wireBytes s⟩, resp := some r } := by
  simp only [flushed, hs, List.tail_nil, flushCall]

end ByAnswer

/-- Settles O50: both answers leave `flushed`, which writes neither the block's state nor the configuration. -/
theorem flushAnswersTheDevice : Obligations.FlushAnswersTheDevice := by
  refine ⟨decodeEncodeRoundTrip .flush, fun s => ⟨fun hok => ?_, fun e herr => ?_, getElem_wireBytes s⟩⟩
  · exact ⟨_, exec_flush_ok hok, rfl, ⟨rfl, rfl, rfl, rfl⟩, rfl, rfl⟩
  · exact ⟨_, exec_flush_err herr, rfl, ⟨rfl, rfl, rfl, rfl⟩, rfl, rfl⟩

/-- Settles O51: the head of the list is the device's answer, and FLUSH leaves the tail. -/
theorem flushUsesUpOneAnswer : Obligations.FlushUsesUpOneAnswer := by
  intro s rest
  refine ⟨fun hs => ?_, fun e hs => ?_⟩
  · rw [exec_flush_ok (devAnswer_cons s _ rest hs), flushed_of_cons _ hs]
  · rw [exec_flush_err (devAnswer_cons s _ rest hs), flushed_of_cons _ hs]

/-- Settles O52: the free value is the device's answer, and each of its three forms ends FLUSH in its own way. -/
theorem flushDrawsAFreeAnswer : Obligations.FlushDrawsAFreeAnswer := by
  intro s hs
  have hdraw : devAnswer s = Config.deviceReply s.devCalls := devAnswer_nil s hs
  rcases hreply : Config.deviceReply s.devCalls with _ | _ | e
  · exact .inr (.inr ⟨rfl, exec_flush_silent (hdraw.trans hreply)⟩)
  · refine .inl ⟨rfl, ?_⟩
    rw [exec_flush_ok (hdraw.trans hreply), flushed_of_nil _ hs]
  · refine .inr (.inl ⟨e, rfl, ?_⟩)
    rw [exec_flush_err (hdraw.trans hreply), flushed_of_nil _ hs]

/-- Settles O53: a written-down silence is a silence of the device, and only an answer lets FLUSH complete. -/
theorem flushIsStuckOnASilentDevice : Obligations.FlushIsStuckOnASilentDevice := by
  refine ⟨fun s => exec_flush_silent, fun s rest hs => exec_flush_silent (devAnswer_cons s none rest hs), fun s t h => ?_⟩
  obtain ⟨r, hr, -⟩ := execFlush_next h
  exact ⟨r, hr⟩

/-! ## FLUSH after FLUSH (R163, R197) -/

/-- A completed FLUSH leaves the buffer and the configuration and counts its call, whatever the device answered. -/
theorem exec_flush_frame {s t : State} (h : exec .flush s = .next t) :
    t.db = s.db ∧ t.params = s.params ∧ t.devCalls = s.devCalls + 1 := by
  cases exec_effect h with
  | flush r _ => exact ⟨respondReply_db .., respondReply_params .., respondReply_devCalls ..⟩

/-- The call FLUSH makes depends on the buffer and the configuration alone (R160). -/
theorem flushCall_congr {s t : State} (hdb : t.db = s.db) (hparams : t.params = s.params) : flushCall t = flushCall s := by
  simp only [flushCall, wireBytes, memRead_congr hdb, hparams]

/-- Settles O54: the first FLUSH leaves what the second one's call depends on. -/
theorem flushRetrySendsSameBytes : Obligations.FlushRetrySendsSameBytes := by
  intro s t u hfirst hsecond
  obtain ⟨hdb, hparams, hcalls⟩ := exec_flush_frame hfirst
  obtain ⟨-, -, hcalls'⟩ := exec_flush_frame hsecond
  have hout : t.devOut = some (flushCall s) := exec_flush_devOut hfirst
  refine ⟨hdb, hcalls, by rw [hcalls', hcalls], by simp [hout], ?_⟩
  rw [exec_flush_devOut hsecond, flushCall_congr hdb hparams, hout]

/-! ## The only stop (R165, R170, R197) -/

/-- Under R27 every TXT_CHAR completes, so of the two commands that can stop only FLUSH is left. -/
theorem exec_fault {i : Instr} {s : State} {f : Fault} (hinv : TextInv s) (h : exec i s = .fault f) :
    i = .flush ∧ f = .deviceSilent ∧ devAnswer s = none := by
  rcases exec_outcome i s with ⟨t, hexec⟩ | ⟨c, rfl, -⟩ | ⟨rfl, -⟩
  · cases hexec.symm.trans h
  · obtain ⟨u, hu⟩ := consumeChar_completes c hinv
    cases (exec_txtChar_of_consumeChar hu).symm.trans h
  · exact ⟨rfl, execFlush_fault h⟩

/-- Settles O42: of the four kinds of step only a decoded command can stop, and `exec_fault` says which and when. -/
theorem onlyASilentDeviceStopsTheBlock : Obligations.OnlyASilentDeviceStopsTheBlock := by
  intro s f hinv h
  have hbegin : TextInv (beginStep s) := hinv.congr rfl rfl
  rcases step_cases s with ⟨-, hstep⟩ | ⟨_, -, hstep⟩ | ⟨_, _, _, -, -, hstep⟩ | ⟨w, rest, i, hs, hi, hstep⟩
  · cases hstep.symm.trans h
  · cases hstep.symm.trans h
  · cases hstep.symm.trans h
  · obtain ⟨rfl, hfault, hsilent⟩ := exec_fault hbegin (hstep.symm.trans h)
    exact ⟨hfault, devAnswer_eq_none.mp hsilent, w, rest, hs, hi⟩

end Sys2Proof.Machine
end

section
/-! PROOFS. The errors the block reports (spec/60_exceptions.md): the causes of R171, each cause and its response in both directions,
and that an error writes no state (R172). -/

namespace Sys2Proof.Machine

/-! ## The causes of an error (R171) -/

/-- The rows of R171: what the host presents, the condition, and the response it gets. -/
inductive ErrorCause (s : State) : Response → Prop where
  | noMapping {w : CmdWord} {rest : List HostInput} {c : CodePoint} (hs : s.host = .command w :: rest)
      (hi : decode w = .ok (.chkLookup c)) (hc : ¬ Mapped c) : ErrorCause s ⟨.noMapping, c.setWidth 64⟩
  | invalidPosition {w : CmdWord} {rest : List HostInput} {n : PosInt} (hs : s.host = .command w :: rest)
      (hi : decode w = .ok (.posCheck n)) (hn : ¬ validPosition n = true) : ErrorCause s ⟨.invalidPosition, n.setWidth 64⟩
  | transportError {w : CmdWord} {rest : List HostInput} {e : TErr} (hs : s.host = .command w :: rest)
      (hi : decode w = .ok .flush) (he : devAnswer s = some (.err e)) : ErrorCause s ⟨.transportError, e⟩
  | illegal {w : CmdWord} {rest : List HostInput} (hs : s.host = .command w :: rest) (hw : legalWord w = false) :
      ErrorCause s ⟨.illegal, 0#64⟩

theorem illegal_of_decode_error {w : CmdWord} {e : DecodeError} (h : decode w = .error e) : legalWord w = false := by
  refine Bool.eq_false_iff.mpr fun hw => ?_
  obtain ⟨i, hi⟩ := (decodeAcceptsExactlyLegalWords w).mp hw
  cases hi.symm.trans h

/-- Beginning a step leaves the device's coming answer. -/
theorem devAnswer_beginStep (s : State) : devAnswer (beginStep s) = devAnswer s := rfl

/-- Each cause is answered with its response, and the step writes nothing of the block's state (R172). -/
theorem ErrorCause.answered {s : State} {r : Response} (h : ErrorCause s r) :
    ∃ t, step s = .next t ∧ t.resp = some r ∧ SameBlock s t := by
  cases h with
  | noMapping hs hi hc =>
    exact ⟨_, (step_of_decode_ok hs hi).trans (exec_chkLookup_unmapped _ hc), rfl, rfl, rfl, rfl, rfl⟩
  | invalidPosition hs hi hn =>
    exact ⟨_, (step_of_decode_ok hs hi).trans (execPosCheck_invalid _ hn), rfl, rfl, rfl, rfl, rfl⟩
  | transportError hs hi he =>
    exact ⟨_, (step_of_decode_ok hs hi).trans (exec_flush_err ((devAnswer_beginStep s).trans he)), rfl, rfl, rfl, rfl, rfl⟩
  | illegal hs hw => exact ⟨_, illegalWordAnswersIllegal s _ _ hs hw, rfl, rfl, rfl, rfl, rfl⟩

/-- Every error a step reports has one of the causes: the other effects answer `OK` or nothing. -/
theorem errorCause_of_step {s t : State} {r : Response} (h : step s = .next t) (hr : t.resp = some r)
    (herr : r.status ≠ .ok) : ErrorCause s r := by
  rcases step_next_cases h with ⟨-, rfl⟩ | ⟨_, -, rfl⟩ | ⟨w, rest, e, hs, he, rfl⟩ | ⟨w, rest, i, hs, hi, hexec⟩
  · cases hr
  · cases hr
  · cases hr
    exact .illegal hs (illegal_of_decode_error he)
  · cases exec_effect hexec with
    | unmapped c hc => cases hr; exact .noMapping hs hi hc
    | invalid n hn => cases hr; exact .invalidPosition hs hi hn
    | flush d hd =>
      cases d with
      | ok => cases hr; exact absurd rfl herr
      | err e =>
        cases (exec_flush_err hd).symm.trans hexec
        cases hr
        exact .transportError hs hi ((devAnswer_beginStep s).symm.trans hd)
    | _ => cases hr; exact absurd rfl herr

/-- A step reports an error exactly when the error has a cause. -/
theorem resp_error_iff {s t : State} {r : Response} (h : step s = .next t) (herr : r.status ≠ .ok) :
    t.resp = some r ↔ ErrorCause s r := by
  refine ⟨fun hr => errorCause_of_step h hr herr, fun hcause => ?_⟩
  obtain ⟨u, hu, hr, -⟩ := hcause.answered
  cases h.symm.trans hu
  exact hr

theorem not_validPosition_iff {n : PosInt} : ¬ validPosition n = true ↔ 4 ≤ n.toNat := by
  rw [validPosition_iff, Nat.not_lt]

/-- Settles O57: each status has one constructor of `ErrorCause`, whose hypotheses are the clause's. -/
theorem errorStatusCauses : Obligations.ErrorStatusCauses := by
  intro s t d h
  have hcause (st : Status) (herr : st ≠ .ok) : t.resp = some ⟨st, d⟩ ↔ ErrorCause s ⟨st, d⟩ := resp_error_iff h herr
  rw [hcause .noMapping nofun, hcause .invalidPosition nofun, hcause .transportError nofun, hcause .illegal nofun]
  refine ⟨⟨fun he => ?_, ?_⟩, ⟨fun he => ?_, ?_⟩, ⟨fun he => ?_, ?_⟩, ⟨fun he => ?_, ?_⟩⟩
  · cases he with
    | noMapping hs hi hc => exact ⟨_, _, _, hs, hi, not_mapped_iff.mp hc, rfl⟩
  · rintro ⟨w, rest, c, hs, hi, hc, rfl⟩
    exact .noMapping hs hi (not_mapped_iff.mpr hc)
  · cases he with
    | invalidPosition hs hi hn => exact ⟨_, _, _, hs, hi, not_validPosition_iff.mp hn, rfl⟩
  · rintro ⟨w, rest, n, hs, hi, hn, rfl⟩
    exact .invalidPosition hs hi (not_validPosition_iff.mpr hn)
  · cases he with
    | transportError hs hi hreply => exact ⟨_, _, hs, hi, hreply⟩
  · rintro ⟨w, rest, hs, hi, hreply⟩
    exact .transportError hs hi hreply
  · cases he with
    | illegal hs hw => exact ⟨_, _, hs, hw, rfl⟩
  · rintro ⟨w, rest, hs, hw, rfl⟩
    exact .illegal hs hw

/-! ## Errors are precise (R172) -/

/-- Settles O58: the error has a cause, and every cause ends in a step that writes no state. -/
theorem failedCommandWritesNoState : Obligations.FailedCommandWritesNoState := by
  intro s t r h hr herr
  obtain ⟨u, hu, -, hsame⟩ := (errorCause_of_step h hr herr).answered
  cases h.symm.trans hu
  exact hsame

end Sys2Proof.Machine
end

section
/-! PROOFS. The commands that may stand between the characters of a text (spec/70_reset_and_hazards.md R195): what they leave. -/

namespace Sys2Proof.Machine

/-! ## The commands that write no state (R47, R195) -/

/-- A FLUSH that completes is `flushed`, whatever the device answered. -/
theorem exec_flush_flushed {s t : State} (h : exec .flush s = .next t) : ∃ r, t = flushed r s := by
  cases exec_effect h with
  | flush d hd =>
    cases d with
    | ok => exact ⟨_, rfl⟩
    | err e => exact ⟨_, rfl⟩

/-- Such a command drives the response port and does nothing else, an error's answer included, or it is FLUSH and calls the device. -/
theorem exec_reader {i : Instr} {s t : State}
    (hi : (∃ c, i = .lookup c) ∨ (∃ c, i = .chkLookup c) ∨ (∃ p, i = .addrOf p) ∨ i = .rawBytes ∨ (∃ n, i = .posCheck n)
      ∨ i = .flush)
    (h : exec i s = .next t) : (∃ r, t = { s with resp := some r }) ∨ (i = .flush ∧ ∃ r, t = flushed r s) := by
  rcases hi with ⟨c, rfl⟩ | ⟨c, rfl⟩ | ⟨p, rfl⟩ | rfl | ⟨n, rfl⟩ | rfl
  · cases exec_effect h with
    | lookup => exact .inl ⟨_, rfl⟩
  · cases exec_effect h with
    | mapped | unmapped => exact .inl ⟨_, rfl⟩
  · cases exec_effect h with
    | addrOf => exact .inl ⟨_, rfl⟩
  · cases exec_effect h with
    | rawBytes => exact .inl ⟨_, rfl⟩
  · cases exec_effect h with
    | valid | invalid => exact .inl ⟨_, rfl⟩
  · exact .inr ⟨rfl, exec_flush_flushed h⟩

/-- Settles O32: the response port is no part of the frame, and `flushed` writes only the ports and the device side. -/
theorem readingCommandsWriteNothing : Obligations.ReadingCommandsWriteNothing := by
  intro i s t hi h
  rcases exec_reader hi h with ⟨r, rfl⟩ | ⟨rfl, r, rfl⟩
  · exact ⟨⟨rfl, rfl, rfl, rfl⟩, memRead_congr rfl, rfl, rfl, fun _ => ⟨rfl, rfl, rfl, rfl, rfl⟩⟩
  · exact ⟨⟨rfl, rfl, rfl, rfl⟩, memRead_congr rfl, rfl, rfl, fun hne => absurd rfl hne⟩

end Sys2Proof.Machine
end
